-- ==== Sys2Proof/Word.lean ====
section
/-! DEFINITION. The word types of the STHASH-NHP block (spec/00_scope.md R8 to R10).

Every value of the block is an unsigned integer of a stated width (R8), so a register, a key word, an NH sum and a digest
are bit vectors. A byte string whose length is not fixed (a seed, a personalization, a message) is a list of bytes. A byte
string of a fixed length `n` that the block stores (the derived key, the three digests) is kept as the `8 n`-bit number
whose bits `8 j + 7 .. 8 j` are byte `j`: by R60 every view the block takes of such a string is little-endian, so this is
the string itself, and it can be compared and written as one numeral. -/

namespace Sys2Proof

/-- One byte (R8). -/
abbrev Byte := BitVec 8

/-- A 32-bit register, command word, key word or message word (R21, R41, R142). -/
abbrev Word := BitVec 32

/-- A 64-bit address, length or NH sum (R31, R32, R45). -/
abbrev DWord := BitVec 64

/-- A byte string of any length, byte 0 first (R8). -/
abbrev Bytes := List Byte

/-- A 16-byte string: a poly digest, an accumulator chunk, the Poly sub-key (R6). -/
abbrev Str16 := BitVec 128

/-- A 32-byte string: an NH digest, a final digest, the KMAC sub-key (R6). -/
abbrev Str32 := BitVec 256

/-- The 4144-byte derived key (R6, R41). -/
abbrev DerivedKey := BitVec 33152

end Sys2Proof
end

