-- ==== Sys2Proof/Syntax.lean ====
section
/-! DEFINITION. The commands of the block, one constructor per row of spec/opcode_table.json (spec/30_encoding.md R83). -/

namespace Sys2Proof

/-- A decoded command (R83). Only `NH` has an operand in its word, the unit count `n = zext_32(ARG)` (R81); the other
operands are the registers latched at acceptance (R102). -/
inductive Instr where
  /-- `NOP`, R110. -/
  | nop
  /-- `KDF`, R121. -/
  | kdf
  /-- `KEYLOAD`, R124. -/
  | keyload
  /-- `TPL_INIT`, R127. -/
  | tplInit
  /-- `NH n`, R141. -/
  | nh (n : Nat)
  /-- `POLY_INIT`, R160. -/
  | polyInit
  /-- `POLY_UPD`, R163. -/
  | polyUpd
  /-- `POLY_UPDNH`, R164. -/
  | polyUpdnh
  /-- `POLY_FIN`, R165. -/
  | polyFin
  /-- `COMBINE`, R181. -/
  | combine
  /-- `HASH`, R201. -/
  | hash
deriving DecidableEq, Repr

end Sys2Proof
end

