-- ==== Sys2Proof/WellFormed.lean ====
section
/-! DEFINITION. Which terms of `Instr` are commands that a word can hold (spec/30_encoding.md R80, R81). -/

namespace Sys2Proof

/-- `ARG` has eight bits, so a unit count lies below 256 (R80). `NH 0` and `NH 65` are well formed: they decode and then fail
their operand check (R86). -/
def Instr.wellFormed : Instr → Bool
  | .nh n => decide (n < 256)
  | .nop | .kdf | .keyload | .tplInit | .polyInit | .polyUpd | .polyUpdnh | .polyFin | .combine | .hash => true

end Sys2Proof
end

