-- ==== Sys2Proof/Decode.lean ====
section
/-! DEFINITION. The decoder and the encoder of the command word `CW` (spec/30_encoding.md R80 to R85, R89). -/

namespace Sys2Proof

/-- Why a word is an illegal command (R82, R85). -/
inductive Illegal where
  /-- `RSV` is not 0, whatever `OP` is (R82). -/
  | reservedBits
  /-- `OP` is not listed in R83. -/
  | reservedOp
  /-- `ARG` is not 0 with an `OP` other than `NH` (R81). -/
  | argument
deriving DecidableEq, Repr

/-- Bits 7:0 of the word, `OP` (R80). -/
def opField (w : Word) : Byte := w.extractLsb' 0 8

/-- Bits 15:8 of the word, `ARG` (R80). -/
def argField (w : Word) : Byte := w.extractLsb' 8 8

/-- Bits 31:16 of the word, `RSV` (R80). -/
def rsvField (w : Word) : BitVec 16 := w.extractLsb' 16 16

/-- A command without an operand in its word needs `ARG = 0` (R81). -/
def plainCommand (arg : Byte) (i : Instr) : Except Illegal Instr :=
  if arg = 0 then .ok i else .error .argument

/-- The opcode map (R83). -/
def decodeOp (op arg : Byte) : Except Illegal Instr :=
  match op with
  | 0x00 => plainCommand arg .nop
  | 0x01 => plainCommand arg .kdf
  | 0x02 => plainCommand arg .keyload
  | 0x03 => plainCommand arg .tplInit
  | 0x10 => .ok (.nh arg.toNat)
  | 0x20 => plainCommand arg .polyInit
  | 0x21 => plainCommand arg .polyUpd
  | 0x22 => plainCommand arg .polyUpdnh
  | 0x23 => plainCommand arg .polyFin
  | 0x30 => plainCommand arg .combine
  | 0x31 => plainCommand arg .hash
  | _ => .error .reservedOp

/-- Every 32-bit word decodes to a command or to the reason it is illegal (R85). -/
def decode (w : Word) : Except Illegal Instr :=
  if rsvField w = 0 then decodeOp (opField w) (argField w) else .error .reservedBits

/-- The opcode of a command (R83). -/
def Instr.opcode : Instr → Byte
  | .nop => 0x00
  | .kdf => 0x01
  | .keyload => 0x02
  | .tplInit => 0x03
  | .nh _ => 0x10
  | .polyInit => 0x20
  | .polyUpd => 0x21
  | .polyUpdnh => 0x22
  | .polyFin => 0x23
  | .combine => 0x30
  | .hash => 0x31

/-- The `ARG` field of a command (R81). -/
def Instr.arg : Instr → Byte
  | .nh n => BitVec.ofNat 8 n
  | .nop | .kdf | .keyload | .tplInit | .polyInit | .polyUpd | .polyUpdnh | .polyFin | .combine | .hash => 0

/-- The word of a command: `RSV = 0`, then `ARG`, then `OP` (R80, R89). -/
def encode (i : Instr) : Word := (0 : BitVec 16) ++ i.arg ++ i.opcode

/-- A word is legal when decoding does not fail (R102). -/
def legalWord (w : Word) : Bool :=
  match decode w with
  | .ok _ => true
  | .error _ => false

/-- A legal word of `NH`, `COMBINE` or `HASH`, the commands whose datapath `STATUS.VEC_USED` shows (R102). -/
def showsVector (w : Word) : Bool :=
  match decode w with
  | .ok (.nh _) | .ok .combine | .ok .hash => true
  | _ => false

/-- The command the decoder reads from a row's bits, numbered as spec/opcode_table.json numbers them. Every command is one
32-bit word (R80), so a longer row is no command, and the bits above `nbits` are 0. -/
def decodeTableWord (nbits w : Nat) : Option Instr :=
  if nbits ≤ 32 then
    match decode (BitVec.ofNat 32 (w % 2 ^ nbits)) with
    | .ok i => some i
    | .error _ => none
  else none

end Sys2Proof
end

