-- ==== Sys2Proof/Machine/Bytes.lean ====
section
/-! DEFINITION. Byte strings and the little-endian conversions between them and words (spec/00_scope.md R8, R9;
spec/20_memory.md R60). -/

namespace Sys2Proof.Machine

open Sys2Proof

/-- The value of a byte string read little-endian: `Σ b[j] 2^(8j)` (R9). -/
def leNat : Bytes → Nat
  | [] => 0
  | b :: bs => b.toNat + 256 * leNat bs

/-- `LE_n(v)`, the `n` bytes of `v`, least significant first (R9). -/
def leBytes : Nat → Nat → Bytes
  | 0, _ => []
  | n + 1, v => BitVec.ofNat 8 v :: leBytes n (v / 256)

/-- `b[o .. o+n)` (R8). -/
def slice (b : Bytes) (o n : Nat) : Bytes := (b.drop o).take n

/-- `le32(b, o)` (R9). -/
def le32 (b : Bytes) (o : Nat) : Word := BitVec.ofNat 32 (leNat (slice b o 4))

/-- `le128(b, o)` as an exact number (R9). -/
def le128 (b : Bytes) (o : Nat) : Nat := leNat (slice b o 16)

/-- A byte string of fixed length `w / 8` from its bytes. -/
def packBytes (w : Nat) (b : Bytes) : BitVec w := BitVec.ofNat w (leNat b)

/-- The bytes `o .. o+n` of a byte string of fixed length, byte `j` being bits `8j+7 .. 8j` (R9). -/
def unpackBytes {w : Nat} (v : BitVec w) (o n : Nat) : Bytes := leBytes n (v.toNat / 2 ^ (8 * o))

/-- `⌈x/16⌉ · 16` (R10). -/
def ceil16 (x : Nat) : Nat := (x + 15) / 16 * 16

end Sys2Proof.Machine
end

