-- ==== Sys2Proof/Config.lean ====
section
/-! DEFINITION. What is fixed for one instance of the block (spec/00_scope.md R5, R6) and the values the spec leaves open.

The implementation parameters of R5 are the fields of `Config`. A state carries them (`State.cfg`, no step changes it), so
a statement about every state is a statement about every instance. The external primitives and the draws are opaque
constants: nothing can be proved about their values. -/

namespace Sys2Proof

/-! ## Constants of the source (R6) -/

/-- `NH_BLOCK_BYTES`. -/
abbrev nhBlockBytes : Nat := 1024
/-- `NH_UNIT_BYTES`. -/
abbrev nhUnitBytes : Nat := 16
/-- `NH_MAX_UNITS`. -/
abbrev nhMaxUnits : Nat := 64
/-- `KEY_BYTES` = 32 + 16 + 4096. -/
abbrev keyBytes : Nat := 4144
/-- `MIN_SEED_BYTES`. -/
abbrev minSeedBytes : Nat := 16
/-- `OUTPUT_BYTES`. -/
abbrev outputBytes : Nat := 32
/-- `LEN_BYTES`. -/
abbrev lenBytes : Nat := 8

/-- The prime `p = 2^130 - 5` of the field accumulator (R6, R167). -/
abbrev polyP : Nat := 1361129467683753853853498429727072845819

/-- `KDF_LABEL`, the ASCII codes of `"sthash key"` (R7). -/
def kdfLabel : Bytes := [0x73, 0x74, 0x68, 0x61, 0x73, 0x68, 0x20, 0x6B, 0x65, 0x79]

/-- The identity word `ID` = "NHP1" (R2, R24). -/
abbrev idWord : Word := 0x4E485031

/-! ## Implementation parameters (R5) -/

/-- Where the personalization string is bound (R5, R129). -/
inductive PersBind where
  | kdf
  | mac
deriving DecidableEq, Repr

/-- What the platform says of a range of host addresses beyond plain memory. -/
inductive MarkKind where
  /-- A bus read there is never answered (R63). -/
  | silent
  /-- A read there has a side effect (R69, R271). -/
  | readEffect
deriving DecidableEq, Repr

/-- A marked range of host addresses, `base .. base + size - 1`. -/
structure Mark where
  base : Nat
  size : Nat
  kind : MarkKind
deriving DecidableEq, Repr

/-- The implementation parameters of one instance (R5), and the platform's address marks (R63, R271). -/
structure Config where
  /-- `ADDR_W`, the width of the host memory addresses the engine reads. -/
  addrW : Nat
  /-- `VEC_PRESENT`, whether the vector NH datapath is built. -/
  vecPresent : Bool
  /-- `PERS_BIND`. -/
  persBind : PersBind
  /-- `NH_BATCH`, the NH digests folded per accumulator update. -/
  nhBatch : Nat
  /-- `PRIM_MAY_FAULT`, whether the external ports can signal an error. -/
  primMayFault : Bool
  /-- `REG_BASE`, the host address of the register window. -/
  regBase : Nat
  /-- The platform's marked address ranges. -/
  marks : List Mark
deriving DecidableEq, Repr

/-- The legal values of the parameters (R5). -/
abbrev Config.wf (c : Config) : Prop :=
  32 ≤ c.addrW ∧ c.addrW ≤ 64 ∧ 1 ≤ c.nhBatch ∧ c.nhBatch ≤ 16 ∧ c.regBase % 256 = 0

/-- The spec's defaults (R5). `REG_BASE` has none: the value 0 and the empty list of marks are the model's
(DESIGN CHOICE, notes/assumptions/2.md). -/
def Config.default : Config where
  addrW := 64
  vecPresent := true
  persBind := .kdf
  nhBatch := 16
  primMayFault := false
  regBase := 0
  marks := []

/-! ## The external primitives (R72, R73) -/

/-- `XOF(label, ctx, input, n)`: opaque and total, it answers exactly `n` bytes (R72). -/
opaque Config.xof (label ctx input : Bytes) (n : Nat) : BitVec (8 * n)

/-- `KMAC(key, ctx, msg, n)`: opaque and total, it answers exactly `n` bytes (R73). -/
opaque Config.kmac (key ctx msg : Bytes) (n : Nat) : BitVec (8 * n)

/-! ## Free values: the draws of the spec (notes/assumptions/4.md)

Each is applied to `State.draws`, which every completion advances, so a later command draws afresh. -/

/-- Which operand range of the running command a byte is read for: two reads of a racing byte need not agree (R71). -/
inductive Slot where
  | ctx
  | src
deriving DecidableEq, Repr

/-- The value of a byte at address `addr` that the host wrote during the command (R71). -/
opaque Config.raceByte (draw : Nat) (slot : Slot) (addr : Nat) : Byte

/-- The key store after an execution-phase error of `KDF` or `KEYLOAD` (R130). -/
opaque Config.freeKey (draw : Nat) : DerivedKey

/-- `st.R` after an execution-phase error of `POLY_UPD`, `COMBINE` or `HASH` (R189, R204, 93_implementation_defined.md row 6). -/
opaque Config.freeR (draw : Nat) : BitVec 128

/-- `st.H` after an execution-phase error of `POLY_UPD`, `COMBINE` or `HASH` (R172, R189, R204); the register holds a
residue (R44), so the value is reduced where it is stored. -/
opaque Config.freeH (draw : Nat) : Nat

end Sys2Proof
end

