-- ==== Sys2Proof/Machine/State.lean ====
section
/-! DEFINITION. The state of the STHASH-NHP block and of the two agents around it (spec/10_state.md, spec/70_reset_and_hazards.md
R260), as plain data.

Three groups of fields: the block (its registers and its internal state, R20 to R50); the environment (host memory as the
engine's bus answers it, the external ports, R16, R63, R72, R73); and the model's own (the inputs still to come, the racing
addresses, the count of draws, what the last register read returned). -/

namespace Sys2Proof.Machine

open Sys2Proof

/-! ## Types of the fields -/

/-- `st.FSM` (R40). -/
inductive Fsm where
  | idle
  | busy
deriving DecidableEq, Repr

/-- The error codes of R220. Codes 11 to 15 are never produced, so they have no name. -/
inductive ErrCode where
  | none
  | illegalCmd
  | invalidSeed
  | invalidKeyLength
  | keyNotValid
  | tplNotValid
  | polyNotValid
  | badLength
  | addrRange
  | memFault
  | primFault
deriving DecidableEq, Repr

/-- The stored bits of `STATUS` (R28). `BUSY` is `st.FSM` (R40), and the reserved bits are not stored (R23). `KEY_VALID`,
`TPL_VALID` and `POLY_VALID` are the bits `st.KEY_VALID`, `st.TPL_VALID` and `st.POLY_VALID` (R42 to R44). -/
structure Status where
  done : Bool
  err : Bool
  ovr : Bool
  keyValid : Bool
  tplValid : Bool
  polyValid : Bool
  vecUsed : Bool
  errCode : ErrCode
  lastOp : Byte
deriving DecidableEq, Repr

/-- The stored bits of `CTRL` (R26). `SRST` reads 0 and is not stored. -/
structure Ctrl where
  vecEn : Bool
  ieDone : Bool
  ieErr : Bool
deriving DecidableEq, Repr

/-- The seven operand registers (R31 to R33). Each 64-bit quantity is two independent 32-bit registers (R68). -/
structure OperandRegs where
  srcAddrLo : Word
  srcAddrHi : Word
  srcLenLo : Word
  srcLenHi : Word
  ctxAddrLo : Word
  ctxAddrHi : Word
  ctxLen : Word
deriving DecidableEq, Repr

/-- `lat`, the operand record latched at acceptance (R40, R102). -/
structure Lat where
  op : Byte
  arg : Byte
  rsv : BitVec 16
  srcAddr : DWord
  srcLen : DWord
  ctxAddr : DWord
  ctxLen : Word
  vecEn : Bool
deriving DecidableEq, Repr

/-- `st.TPL` as the pair `(tk, tc)` (R43). -/
structure Template where
  tk : Str32
  tc : Bytes
deriving DecidableEq, Repr

/-- The NH working state (R45): the four 64-bit sums and the unit index. -/
structure NhAcc where
  s0 : DWord
  s1 : DWord
  s2 : DWord
  s3 : DWord
  unit : Nat
deriving DecidableEq, Repr

/-- What exists only inside a command (R45 to R48): the NH working state, `st.DBUF` with its count `st.DCNT`, `st.PBUF` and
`st.VEC_SEL`. -/
structure Work where
  nh : NhAcc
  dbuf : Bytes
  dcnt : Nat
  pbuf : Bytes
  vecSel : Bool
deriving DecidableEq, Repr

/-- How an external port answers a request (R74, R75). -/
inductive PortMode where
  /-- With data. -/
  | answers
  /-- With an error signal; such an answer exists only when `PRIM_MAY_FAULT` is true (R74). -/
  | errs
  /-- Never (R75). -/
  | silent
deriving DecidableEq, Repr

/-- The two external ports (R72, R73). -/
inductive Port where
  | xof
  | kmac
deriving DecidableEq, Repr

/-- Host memory as the engine's bus answers it: the bytes that answer with data, addresses strictly rising. An address that
is not listed answers with a bus error (R63). -/
abbrev Memory := List Host.Cell

/-- One move of the agents around the block, or of the engine (R16). The list of them in `State.inputs` says who moves next;
every list is allowed, so every interleaving of the hosts and the engine is a list (R229, R244). -/
inductive Event where
  /-- A host write access of `width` bits at host address `addr` (R21, R22). -/
  | write (addr width : Nat) (v : Word)
  /-- A host read access of `width` bits at host address `addr` (R21, R22). -/
  | read (addr width : Nat)
  /-- A host store of one byte to host memory (R16, R71). -/
  | store (addr : Nat) (b : Byte)
  /-- The platform makes reads of an address answer with a bus error (R63). -/
  | busError (addr : Nat)
  /-- A port changes how it answers (R74, R75). -/
  | port (p : Port) (m : PortMode)
  /-- The platform asserts the hardware reset (R260, R261). Reset takes precedence over a completion in the same step (R229). -/
  | hwReset
  /-- The engine takes its step. -/
  | engine
  /-- The engine takes its step and a host write access falls in the same step (R229). -/
  | engineWrite (addr width : Nat) (v : Word)
deriving DecidableEq, Repr

/-- Why the machine stops. -/
inductive Fault where
  /-- Raised by `storeByte`: the host stores to an address at or above `2^ADDR_W`, and host memory has no such byte (R51).
  Safe: the model stops. -/
  | noSuchHostByte (addr : Nat)
deriving DecidableEq, Repr

/-- What the model gives no meaning to. -/
inductive Refusal where
  /-- An instruction of the opcode table that has no meaning in the model. Safe. -/
  | notModelled (mnemonic : String)
  /-- Raised by `runEvent`: a host access that is not 32 bits wide at a multiple-of-4 offset of the register window; the spec
  defines no such access and says that a model refuses it (R22). Safe. -/
  | badRegisterAccess (addr width : Nat)
  /-- Raised by a command whose operand range holds an address the platform marks as having read side effects; the spec says
  that a model refuses the launch (R69, R271). Safe. -/
  | readSideEffects (addr : Nat)
deriving DecidableEq, Repr

/-! ## Values for "no value" -/

/-- `lat` while `st.FSM = IDLE`: the spec gives it no value and no rule reads it (R40, R49). One fixed value stands for that
(DESIGN CHOICE, notes/assumptions/6.md). -/
def Lat.none : Lat := ⟨0, 0, 0, 0, 0, 0, 0, false⟩

/-- The NH sums at the start of every evaluation (R45, R142). -/
def NhAcc.zero : NhAcc := ⟨0, 0, 0, 0, 0⟩

/-- The working state outside a command (R45 to R49). One fixed value stands for "no value" (DESIGN CHOICE,
notes/assumptions/6.md). -/
def Work.none : Work := ⟨NhAcc.zero, [], 0, [], false⟩

/-! ## The state -/

/-- The machine. -/
structure State where
  /-- The parameters of this instance (R5). No step changes them. -/
  cfg : Config
  /-- `CTRL` (R26). -/
  ctrl : Ctrl
  /-- `STATUS` (R28) but for `BUSY`. -/
  status : Status
  /-- `SRC_ADDR`, `SRC_LEN`, `CTX_ADDR`, `CTX_LEN` (R31 to R33). -/
  opnd : OperandRegs
  /-- `ERR_ADDR` (R34). -/
  errAddr : DWord
  /-- `st.NHD`, shown by `NH_OUT0` to `NH_OUT7` (R35). -/
  nhd : Str32
  /-- `st.PD`, shown by `POLY_OUT0` to `POLY_OUT3` (R36). -/
  pd : Str16
  /-- `st.HD`, shown by `HASH_OUT0` to `HASH_OUT7` (R37). -/
  hd : Str32
  /-- `st.FSM`, shown by `STATUS.BUSY` (R40). -/
  fsm : Fsm
  /-- `lat` (R40, R102). -/
  lat : Lat
  /-- `st.KEYRAM` (R41). -/
  keyram : DerivedKey
  /-- `st.TPL` (R43). -/
  tpl : Template
  /-- `st.R` (R44). -/
  r : BitVec 128
  /-- `st.H`, a residue modulo p (R44). -/
  h : Fin polyP
  /-- `s0..s3`, the unit index, `st.DBUF`, `st.DCNT`, `st.PBUF`, `st.VEC_SEL` (R45 to R48). -/
  work : Work
  /-- Host memory (R51, R63). -/
  mem : Memory
  /-- How the XOF port answers (R72, R74, R75). -/
  xofPort : PortMode
  /-- How the KMAC port answers (R73, R74, R75). -/
  kmacPort : PortMode
  /-- The addresses the host stored to since the running command was accepted, strictly rising (R71). -/
  raced : List Nat
  /-- The model's own: how many completions have drawn free values (notes/assumptions/4.md). -/
  draws : Nat
  /-- The model's own: what the host's last register read returned (R21). -/
  rdata : Word
  /-- The model's own: the moves of the host, the platform and the engine still to come, the next one first. -/
  inputs : List Event
deriving DecidableEq, Repr

/-- `STATUS` after reset (R28, R260). -/
def Status.reset : Status := ⟨false, false, false, false, false, false, false, .none, 0⟩

/-- The machine right after a hardware reset (R260), with the default parameters (R5), nothing in host memory, both ports
answering and no input waiting. `st.KEYRAM`, `st.R` and `st.H` are unspecified, `st.TPL` and `lat` have no value: the zeros
here are the model's (DESIGN CHOICE, notes/assumptions/3.md and 6.md). -/
def State.reset : State where
  cfg := Config.default
  ctrl := ⟨false, false, false⟩
  status := Status.reset
  opnd := ⟨0, 0, 0, 0, 0, 0, 0⟩
  errAddr := 0
  nhd := 0
  pd := 0
  hd := 0
  fsm := .idle
  lat := Lat.none
  keyram := 0
  tpl := ⟨0, []⟩
  r := 0
  h := 0
  work := Work.none
  mem := []
  xofPort := .answers
  kmacPort := .answers
  raced := []
  draws := 0
  rdata := 0
  inputs := []

end Sys2Proof.Machine
end

