-- ==== Sys2Proof/Machine/Ops.lean ====
section
/-! DEFINITION. The named operations over the state: host memory, the acceptance of a command, its two completions and their
acknowledgement, reset (spec/20_memory.md, spec/40_control.md, spec/60_exceptions.md, spec/70_reset_and_hazards.md). -/

namespace Sys2Proof.Machine

open Sys2Proof

/-! ## Host memory (R51, R63) -/

/-- The addresses of a list of cells rise strictly. -/
def Memory.rising : Memory → Bool
  | [] => true
  | [_] => true
  | c :: d :: m => decide (c.1 < d.1) && Memory.rising (d :: m)

/-- The canonical form: addresses strictly rising. An unlisted address reads as no byte at all, so no entry can equal it. -/
abbrev Memory.wf (m : Memory) : Prop := Memory.rising m = true

/-- What the bus answers at an address: the byte listed there, and `none`, a bus error, at an unlisted address (R63;
DESIGN CHOICE for memory that nothing has written, notes/assumptions/1.md). -/
def Memory.get : Memory → Nat → Option Byte
  | [], _ => none
  | (a, b) :: m, x => if a = x then some b else Memory.get m x

/-- Put a byte at an address, keeping the canonical form. -/
def Memory.set : Memory → Nat → Byte → Memory
  | [], x, v => [(x, v)]
  | (a, b) :: m, x, v =>
    if x < a then (x, v) :: (a, b) :: m else if a = x then (x, v) :: m else (a, b) :: Memory.set m x v

/-- Take an address out, so that it answers with a bus error. -/
def Memory.erase : Memory → Nat → Memory
  | [], _ => []
  | (a, b) :: m, x => if a = x then m else (a, b) :: Memory.erase m x

/-- Put an address into a strictly rising list of addresses. -/
def insertAddr : List Nat → Nat → List Nat
  | [], x => [x]
  | a :: l, x => if x < a then x :: a :: l else if a = x then a :: l else a :: insertAddr l x

/-- A host store of one byte to host memory (R16). While a command runs the address becomes a racing one (R71). An address
outside the `ADDR_W`-bit space names no byte of host memory (R51). -/
def storeByte (a : Nat) (b : Byte) (s : State) : Host.Outcome State Fault Refusal :=
  if a < 2 ^ s.cfg.addrW then
    .next { s with mem := s.mem.set a b, raced := if s.fsm = .busy then insertAddr s.raced a else s.raced }
  else .fault (.noSuchHostByte a)

/-- The platform makes an address answer with a bus error (R63). -/
def unmapByte (a : Nat) (s : State) : State := { s with mem := s.mem.erase a }

/-- A port changes how it answers (R74, R75). -/
def setPort (p : Port) (m : PortMode) (s : State) : State :=
  match p with
  | .xof => { s with xofPort := m }
  | .kmac => { s with kmacPort := m }

/-! ## Acceptance (R101 to R103) -/

/-- `SRC_ADDR_HI ‖ SRC_ADDR_LO` (R31). -/
def srcAddr (s : State) : DWord := s.opnd.srcAddrHi ++ s.opnd.srcAddrLo

/-- `SRC_LEN_HI ‖ SRC_LEN_LO` (R32). -/
def srcLen (s : State) : DWord := s.opnd.srcLenHi ++ s.opnd.srcLenLo

/-- `CTX_ADDR_HI ‖ CTX_ADDR_LO` (R33). -/
def ctxAddr (s : State) : DWord := s.opnd.ctxAddrHi ++ s.opnd.ctxAddrLo

/-- The operand record that a command word latches (R102). -/
def latch (w : Word) (s : State) : Lat where
  op := opField w
  arg := argField w
  rsv := rsvField w
  srcAddr := srcAddr s
  srcLen := srcLen s
  ctxAddr := ctxAddr s
  ctxLen := s.opnd.ctxLen
  vecEn := s.ctrl.vecEn

/-- `lat.VEC_EN ∧ CAPS.VEC_PRESENT` at acceptance (R48, R102). -/
def vecSelect (s : State) : Bool := s.ctrl.vecEn && s.cfg.vecPresent

/-- `accept(w)` (R102). No host write of the command has happened yet, so no address races. -/
def accept (w : Word) (s : State) : State :=
  { s with
    lat := latch w s
    work := { Work.none with vecSel := vecSelect s }
    fsm := .busy
    raced := []
    status := { s.status with
      done := false
      err := false
      errCode := .none
      lastOp := opField w
      vecUsed := showsVector w && vecSelect s } }

/-- A host write of a word to `CMD` (R101): accepted when idle, else dropped with `OVR` (R103). -/
def writeCmd (w : Word) (s : State) : State :=
  match s.fsm with
  | .idle => accept w s
  | .busy => { s with status := { s.status with ovr := true } }

/-- The word of the running command, from its latched fields (R80, R102). -/
def commandWord (l : Lat) : Word := l.rsv ++ l.arg ++ l.op

/-! ## Completion (R223, R224) -/

/-- What both completions do: `DONE <- 1`, `BUSY <- 0`, `FSM <- IDLE`; nothing that exists only inside a command lasts
(R49), and the next command draws afresh. -/
def finish (s : State) : State :=
  { s with
    fsm := .idle
    lat := Lat.none
    work := Work.none
    raced := []
    draws := s.draws + 1
    status := { s.status with done := true } }

/-- `complete()` (R223), applied to the state with the results of the command written. -/
def complete (s : State) : State := finish s

/-- The error codes that record an address (R221, R224). -/
def ErrCode.recordsAddr : ErrCode → Bool
  | .addrRange | .memFault => true
  | .none | .illegalCmd | .invalidSeed | .invalidKeyLength | .keyNotValid | .tplNotValid | .polyNotValid | .badLength
  | .primFault => false

/-- `raise Error(code, info)` (R224): the block's one way to take an exception. It is applied to the state with the
command's own error side effects written. It saves no program counter, changes no mode and jumps nowhere (R227). -/
def raiseError (code : ErrCode) (info : DWord) (s : State) : State :=
  finish { s with
    errAddr := if code.recordsAddr then info else s.errAddr
    status := { s.status with errCode := code, err := true } }

/-- The return from an exception: the host acknowledges by writing ones to `STATUS` (R29, R228). -/
def acknowledge (v : Word) (s : State) : State :=
  { s with status := { s.status with
      done := s.status.done && !v.getLsbD 1
      err := s.status.err && !v.getLsbD 2
      ovr := s.status.ovr && !v.getLsbD 3 } }

/-- A word that does not decode completes at once with `ILLEGAL_CMD` (R85, R222 step 1). -/
def illegalCommand (s : State) : State := raiseError .illegalCmd 0 s

/-! ## Error side effects (R225) -/

/-- An execution-phase error of `KDF` or `KEYLOAD` (R130): the key store holds any value and nothing is valid. -/
def spoilKey (s : State) : State :=
  { s with
    keyram := Config.freeKey s.draws
    status := { s.status with keyValid := false, tplValid := false, polyValid := false } }

/-- Any residue (R44, R172). -/
def freeResidue (draw : Nat) : Fin polyP := ⟨Config.freeH draw % polyP, Nat.mod_lt _ (by decide)⟩

/-- An execution-phase error of `POLY_UPD`, `COMBINE` or `HASH` (R172, R189, R204, R225, 93_implementation_defined.md row 6): `st.R`
and `st.H` hold any value and the accumulator is not valid. -/
def spoilAcc (s : State) : State :=
  { s with
    r := Config.freeR s.draws
    h := freeResidue s.draws
    status := { s.status with polyValid := false } }

/-- A `PRIM_FAULT` of `TPL_INIT` or `HASH` (R128, R204): the template is not valid. -/
def dropTemplate (s : State) : State := { s with status := { s.status with tplValid := false } }

/-! ## Reset (R260 to R263) -/

/-- A hardware or soft reset: the block takes the state of R260, whatever it was doing (R261). Host memory, the platform,
the ports, the inputs still to come and the host's own record of its last read are outside the block (R263). -/
def resetBlock (s : State) : State :=
  { State.reset with
    cfg := s.cfg
    mem := s.mem
    xofPort := s.xofPort
    kmacPort := s.kmacPort
    draws := s.draws
    rdata := s.rdata
    inputs := s.inputs }

end Sys2Proof.Machine
end

