-- ==== Sys2Proof/Machine/Operands.lean ====
section
/-! DEFINITION. The operands of a command: its latched ranges, their check, the engine's reads of host memory, and the requests
to the external ports (spec/20_memory.md R61 to R66, R71 to R75). -/

namespace Sys2Proof.Machine

open Sys2Proof

/-! ## What a bus read or a port request gives -/

/-- The outcome of a read or of a sequence of reads: the value, the lowest faulting address (R63), or no answer at all. -/
inductive Got (α : Type) where
  | data (x : α)
  | fault (f : Nat)
  | silent
deriving DecidableEq, Repr

/-- Go on with the value, if there is one. -/
def Got.bind {α β : Type} (g : Got α) (f : α → Got β) : Got β :=
  match g with
  | .data x => f x
  | .fault a => .fault a
  | .silent => .silent

/-! ## Ranges (R65, R69) -/

/-- `check_range(a, n)`: the range ends inside the address space, in unbounded integers (R65). -/
def rangeOk (s : State) (a n : Nat) : Bool := decide (a + n ≤ 2 ^ s.cfg.addrW)

/-- A mark holds an address. -/
def markHolds (k : Mark) (a : Nat) : Bool := decide (k.base ≤ a) && decide (a < k.base + k.size)

/-- A mark and a range have an address in common. -/
def markMeets (k : Mark) (a n : Nat) : Bool :=
  decide (0 < n) && decide (0 < k.size) && decide (k.base < a + n) && decide (a < k.base + k.size)

/-- The range holds an address the platform marks as having read side effects (R69, R271). -/
def hasReadEffects (s : State) (a n : Nat) : Bool := s.cfg.marks.any fun k => decide (k.kind = .readEffect) && markMeets k a n

/-! ## Engine reads (R62, R63, R71) -/

/-- An address whose reads are never answered (R63). -/
def isSilent (s : State) (a : Nat) : Bool := s.cfg.marks.any fun k => decide (k.kind = .silent) && markHolds k a

/-- The answer to the engine's read of one byte for one operand range: a racing byte is a draw (R71), any other is what host
memory answers (R63). -/
def busByte (s : State) (slot : Slot) (a : Nat) : Got Byte :=
  if isSilent s a then .silent
  else match s.mem.get a with
    | none => .fault a
    | some b => .data (if s.raced.contains a then Config.raceByte s.draws slot a else b)

/-- The bytes at `a, a+1, …, a+n-1` in address order, stopping at the first that does not answer with data (R62, R63). -/
def readBytes (bus : Nat → Got Byte) (a : Nat) : Nat → Got Bytes
  | 0 => .data []
  | n + 1 => (bus a).bind fun b => (readBytes bus (a + 1) n).bind fun bs => .data (b :: bs)

/-- `MemRead(a, n)` (R62). -/
def memRead (s : State) (slot : Slot) (a n : Nat) : Got Bytes := readBytes (busByte s slot) a n

/-! ## Latched operands (R81, R102) -/

/-- The start of the main operand, a latched address. -/
def latSrc (s : State) : Nat := s.lat.srcAddr.toNat

/-- The length of the main operand, latched. -/
def latLen (s : State) : Nat := s.lat.srcLen.toNat

/-- The start of the personalization string, latched. -/
def latCtx (s : State) : Nat := s.lat.ctxAddr.toNat

/-- The length of the personalization string, latched. -/
def latCtxLen (s : State) : Nat := s.lat.ctxLen.toNat

/-! ## The key store (R41) -/

/-- `KMAC_KEY = st.KEYRAM[0 .. 32)`. -/
def kmacKey (k : DerivedKey) : Str32 := k.extractLsb' 0 256

/-- `POLY_KEY = st.KEYRAM[32 .. 48)`. -/
def polyKey (k : DerivedKey) : Str16 := k.extractLsb' 256 128

/-- `K[w] = le32(st.KEYRAM, 48 + 4 w)`. -/
def nhKey (k : DerivedKey) (w : Nat) : Word := k.extractLsb' (8 * (48 + 4 * w)) 32

/-! ## Port requests (R72 to R75) -/

/-- The answer to one port request. -/
inductive PortAnswer (α : Type) where
  | data (x : α)
  | error
  | silent
deriving DecidableEq, Repr

/-- A port answers with data unless it never answers, or signals an error on an instance whose ports may (R74, R75). -/
def portAnswer {α : Type} (s : State) (m : PortMode) (x : α) : PortAnswer α :=
  match m with
  | .answers => .data x
  | .errs => if s.cfg.primMayFault then .error else .data x
  | .silent => .silent

/-- The XOF request of `KDF`: `XOF(KDF_LABEL, ctx, seed, KEY_BYTES)` (R122). -/
def xofRequest (s : State) (ctx seed : Bytes) : PortAnswer DerivedKey :=
  portAnswer s s.xofPort (Config.xof kdfLabel ctx seed keyBytes)

/-- The KMAC unit's state while it absorbs a message: the template it was cloned from and the bytes absorbed so far (R73). -/
structure MacState where
  tpl : Template
  absorbed : Bytes
deriving DecidableEq, Repr

/-- `KMAC_INIT(key, ctx)` as a value: the template is the pair it was made from (R43, R73). -/
def kmacInit (key : Str32) (ctx : Bytes) : Template := ⟨key, ctx⟩

/-- A clone of the template, with nothing absorbed (R73 law iii, R203). -/
def macClone (t : Template) : MacState := ⟨t, []⟩

/-- Absorb more bytes: two updates absorb the concatenation (R73 law ii). -/
def macUpdate (m : MacState) (b : Bytes) : MacState := { m with absorbed := m.absorbed ++ b }

/-- Squeeze `n` bytes (R73 law i). -/
def macFinal (m : MacState) (n : Nat) : BitVec (8 * n) :=
  Config.kmac (unpackBytes m.tpl.tk 0 32) m.tpl.tc m.absorbed n

/-- The `KMAC_INIT` request of `TPL_INIT` (R127). -/
def kmacInitRequest (s : State) (key : Str32) (ctx : Bytes) : PortAnswer Template :=
  portAnswer s s.kmacPort (kmacInit key ctx)

/-- `KMAC_FINAL(st.TPL, LE64(L) ‖ pd, 32)` as `HASH` sends it: a clone absorbs the length bytes, then the poly digest
(R200 to R203). -/
def kmacFinalRequest (s : State) (len : Nat) (pd : Str16) : PortAnswer Str32 :=
  portAnswer s s.kmacPort
    (macFinal (macUpdate (macUpdate (macClone s.tpl) (leBytes lenBytes len)) (unpackBytes pd 0 16)) outputBytes)

/-! ## Guards: the checks of R222 in the order a command lists them -/

/-- Go on when a check holds, else complete with its error (R222). -/
def check (ok : Bool) (code : ErrCode) (info : DWord) (s : State) (k : Host.Outcome State Fault Refusal) :
    Host.Outcome State Fault Refusal :=
  if ok then k else .next (raiseError code info s)

/-- `check_range` of a range that starts at a latched address (R65): a failure records that address (R221). -/
def checkRange (a : DWord) (n : Nat) (s : State) (k : Host.Outcome State Fault Refusal) :
    Host.Outcome State Fault Refusal :=
  check (rangeOk s a.toNat n) .addrRange a s k

/-- The model refuses a launch at a range with read side effects (R69, R271). -/
def launch (a n : Nat) (s : State) (k : Host.Outcome State Fault Refusal) : Host.Outcome State Fault Refusal :=
  if hasReadEffects s a n then .refused (.readSideEffects a) else k

/-- The three ways a read ends for the command: go on with the bytes; complete with `MEM_FAULT` at the lowest faulting
address (R63), after the command's own side effect; or never end, so that the command stays `BUSY` and only a reset leaves
it (R63, R262). -/
def onRead {α : Type} (g : Got α) (spoil : State → State) (s : State) (k : α → Host.Outcome State Fault Refusal) :
    Host.Outcome State Fault Refusal :=
  match g with
  | .data x => k x
  | .fault f => .next (raiseError .memFault (BitVec.ofNat 64 f) (spoil s))
  | .silent => .next s

/-- The three ways a port request ends for the command: data, `PRIM_FAULT` after the command's own side effect (R74), or
never (R75). -/
def onPort {α : Type} (g : PortAnswer α) (spoil : State → State) (s : State)
    (k : α → Host.Outcome State Fault Refusal) : Host.Outcome State Fault Refusal :=
  match g with
  | .data x => k x
  | .error => .next (raiseError .primFault 0 (spoil s))
  | .silent => .next s

end Sys2Proof.Machine
end

