-- ==== Sys2Proof/Machine/Nh.lean ====
section
/-! DEFINITION. The NH universal block hash on its two datapaths, and the command `NH` (spec/42_nh.md). -/

namespace Sys2Proof.Machine

open Sys2Proof

/-! ## The NH function (R142) -/

/-- `(m +_32 k) ×_{32→64} (m' +_32 k')`: the adds wrap at 32 bits, the product is exact (R143). -/
def nhProduct (m k m' k' : Word) : DWord := (m + k).setWidth 64 * (m' + k').setWidth 64

/-- The first product of pass `i` on unit `u` (R142): `(m0 + k[4i]) (m2 + k[4i+2])` with `k[j] = K[4u + j]`. -/
def nhEven (k : DerivedKey) (msg : Bytes) (u i : Nat) : DWord :=
  nhProduct (le32 msg (16 * u)) (nhKey k (4 * u + 4 * i)) (le32 msg (16 * u + 8)) (nhKey k (4 * u + 4 * i + 2))

/-- The second product of pass `i` on unit `u` (R142): `(m1 + k[4i+1]) (m3 + k[4i+3])`. -/
def nhOdd (k : DerivedKey) (msg : Bytes) (u i : Nat) : DWord :=
  nhProduct (le32 msg (16 * u + 4)) (nhKey k (4 * u + 4 * i + 1)) (le32 msg (16 * u + 12)) (nhKey k (4 * u + 4 * i + 3))

/-- Pass `i` of unit `u` on a sum: the two products are added one after the other (R142). -/
def nhPass (k : DerivedKey) (msg : Bytes) (u i : Nat) (sum : DWord) : DWord :=
  sum + nhEven k msg u i + nhOdd k msg u i

/-- One unit: the four passes, then the window advances (R142). -/
def nhUnit (k : DerivedKey) (msg : Bytes) (a : NhAcc) : NhAcc where
  s0 := nhPass k msg a.unit 0 a.s0
  s1 := nhPass k msg a.unit 1 a.s1
  s2 := nhPass k msg a.unit 2 a.s2
  s3 := nhPass k msg a.unit 3 a.s3
  unit := a.unit + 1

/-- The scalar datapath: `n` units, one after the other (R142). -/
def nhUnits (k : DerivedKey) (msg : Bytes) : Nat → NhAcc → NhAcc
  | 0, a => a
  | n + 1, a => nhUnits k msg n (nhUnit k msg a)

/-- `LE64(s0) ‖ LE64(s1) ‖ LE64(s2) ‖ LE64(s3)`, byte 0 lowest (R145). -/
def nhDigest (a : NhAcc) : Str32 := a.s3 ++ a.s2 ++ a.s1 ++ a.s0

/-! ## The vector datapath (R147, the reference grouping) -/

/-- The two products of unit `u` in lane `i`. -/
def laneTerm (k : DerivedKey) (msg : Bytes) (u i : Nat) : DWord := nhEven k msg u i + nhOdd k msg u i

/-- What one vector iteration adds to lane `i`: the terms of units `u .. u+3`. -/
def laneSum (k : DerivedKey) (msg : Bytes) (u i : Nat) : DWord :=
  laneTerm k msg u i + laneTerm k msg (u + 1) i + laneTerm k msg (u + 2) i + laneTerm k msg (u + 3) i

/-- Add one term to each lane and move on by `d` units. -/
def addLanes (f : Nat → DWord) (d : Nat) (a : NhAcc) : NhAcc :=
  ⟨a.s0 + f 0, a.s1 + f 1, a.s2 + f 2, a.s3 + f 3, a.unit + d⟩

/-- The vector iterations, four units each. -/
def vecIterations (k : DerivedKey) (msg : Bytes) : Nat → NhAcc → NhAcc
  | 0, a => a
  | q + 1, a => vecIterations k msg q (addLanes (laneSum k msg a.unit) 4 a)

/-- The tail of `n mod 4` units, one at a time. -/
def vecTail (k : DerivedKey) (msg : Bytes) : Nat → NhAcc → NhAcc
  | 0, a => a
  | t + 1, a => vecTail k msg t (addLanes (laneTerm k msg a.unit) 1 a)

/-- The vector datapath on `n` units. -/
def nhVector (k : DerivedKey) (msg : Bytes) (n : Nat) (a : NhAcc) : NhAcc :=
  vecTail k msg (n % 4) (vecIterations k msg (n / 4) a)

/-! ## One evaluation (R140, R146) -/

/-- One NH evaluation of a message of `16 n` bytes on the selected datapath, from zero sums and window offset 0
(R45, R142, R146). -/
def nhEval (vecSel : Bool) (k : DerivedKey) (msg : Bytes) : NhAcc :=
  if vecSel then nhVector k msg (msg.length / 16) NhAcc.zero else nhUnits k msg (msg.length / 16) NhAcc.zero

/-- `NH(K, M)` of R142. -/
def nhHash (k : DerivedKey) (msg : Bytes) : Str32 := nhDigest (nhUnits k msg (msg.length / 16) NhAcc.zero)

/-! ## The command (R141) -/

/-- Store the NH digest of an evaluation (R35, R141). -/
def storeNh (a : NhAcc) (s : State) : State := { s with work := { s.work with nh := a }, nhd := nhDigest a }

/-- `NH n` (R141). `lat.SRC_LEN` is not read. -/
def execNh (n : Nat) (s : State) : Host.Outcome State Fault Refusal :=
  check s.status.keyValid .keyNotValid 0 s <|
  check (decide (1 ≤ n) && decide (n ≤ nhMaxUnits)) .badLength 0 s <|
  checkRange s.lat.srcAddr (16 * n) s <|
  launch (latSrc s) (16 * n) s <|
  onRead (memRead s .src (latSrc s) (16 * n)) id s fun msg =>
  .next (complete (storeNh (nhEval s.work.vecSel s.keyram msg) s))

end Sys2Proof.Machine
end

