-- ==== Sys2Proof/Machine/Poly.lean ====
section
/-! DEFINITION. The Poly1305-family field accumulator in its residue form, and the commands `POLY_INIT`, `POLY_UPD`, `POLY_UPDNH`
and `POLY_FIN` (spec/43_poly.md). -/

namespace Sys2Proof.Machine

open Sys2Proof

/-! ## The arithmetic (R161 to R168) -/

/-- The clamp mask (R161). -/
def clampMask : BitVec 128 := 0x0FFFFFFC0FFFFFFC0FFFFFFC0FFFFFFF

/-- `clamp(k)` (R161). -/
def clamp (k : Str16) : BitVec 128 := k &&& clampMask

/-- `v(c) = le128(c, 0) + 2^128` of a 16-byte chunk (R162). -/
def chunkValue (c : Bytes) : Nat := le128 c 0 + 2 ^ 128

/-- One chunk: add, multiply, reduce (R167). -/
def foldChunk (r : BitVec 128) (h : Fin polyP) (c : Bytes) : Fin polyP :=
  ⟨(h.val + chunkValue c) * r.toNat % polyP, Nat.mod_lt _ (by decide)⟩

/-- The first `n` chunks of a byte string, in order. -/
def foldChunks (r : BitVec 128) : Nat → Fin polyP → Bytes → Fin polyP
  | 0, h, _ => h
  | n + 1, h, d => foldChunks r n (foldChunk r h (d.take 16)) (d.drop 16)

/-- `fold(h, D)` for a byte string whose length is a multiple of 16 (R167). -/
def fold (r : BitVec 128) (h : Fin polyP) (d : Bytes) : Fin polyP := foldChunks r (d.length / 16) h d

/-- `finalize(h) = LE128(h mod 2^128)` of the residue; no pad is added (R166). -/
def finalize (h : Fin polyP) : Str16 := BitVec.ofNat 128 h.val

/-! ## The commands -/

/-- A fresh accumulator (R160). -/
def storeFresh (s : State) : State :=
  { s with r := clamp (polyKey s.keyram), h := 0, status := { s.status with polyValid := true } }

/-- `POLY_INIT` (R160). -/
def execPolyInit (s : State) : Host.Outcome State Fault Refusal :=
  check s.status.keyValid .keyNotValid 0 s <|
  .next (complete (storeFresh s))

/-- Fold data into the accumulator (R163). -/
def foldInto (d : Bytes) (s : State) : State := { s with h := fold s.r s.h d }

/-- `POLY_UPD` (R163, R172). -/
def execPolyUpd (s : State) : Host.Outcome State Fault Refusal :=
  check s.status.polyValid .polyNotValid 0 s <|
  check (decide (latLen s % 16 = 0)) .badLength 0 s <|
  checkRange s.lat.srcAddr (latLen s) s <|
  launch (latSrc s) (latLen s) s <|
  onRead (memRead s .src (latSrc s) (latLen s)) spoilAcc s fun d =>
  .next (complete (foldInto d s))

/-- `POLY_UPDNH` (R164): the 32 bytes of `st.NHD` are two chunks. -/
def execPolyUpdnh (s : State) : Host.Outcome State Fault Refusal :=
  check s.status.polyValid .polyNotValid 0 s <|
  .next (complete { s with h := fold s.r s.h (unpackBytes s.nhd 0 32) })

/-- `POLY_FIN` (R165): the accumulator is not consumed. -/
def execPolyFin (s : State) : Host.Outcome State Fault Refusal :=
  check s.status.polyValid .polyNotValid 0 s <|
  .next (complete { s with pd := finalize s.h })

end Sys2Proof.Machine
end

