-- ==== Sys2Proof/Machine/Combiner.lean ====
section
/-! DEFINITION. The block combiner and padding controller, and the command `COMBINE` (spec/44_combiner.md). -/

namespace Sys2Proof.Machine

open Sys2Proof

/-- What the combiner works on: the accumulator residue and the working state of the command (R182). -/
structure Comb where
  h : Fin polyP
  work : Work
deriving DecidableEq, Repr

/-- Fold the digest buffer into the accumulator and empty it (R182, R185). -/
def flush (r : BitVec 128) (c : Comb) : Comb :=
  ⟨fold r c.h c.work.dbuf, { c.work with dbuf := [], dcnt := 0 }⟩

/-- Append the NH digest of one block to the digest buffer (R182). -/
def pushDigest (k : DerivedKey) (x : Bytes) (c : Comb) : Comb :=
  let a := nhEval c.work.vecSel k x
  ⟨c.h, { c.work with nh := a, dbuf := c.work.dbuf ++ unpackBytes (nhDigest a) 0 32, dcnt := c.work.dcnt + 1 }⟩

/-- A full block: append its digest, and fold the buffer once it holds `B` digests (R182). -/
def fullBlock (batch : Nat) (r : BitVec 128) (k : DerivedKey) (x : Bytes) (c : Comb) : Comb :=
  let c' := pushDigest k x c
  if c'.work.dcnt = batch then flush r c' else c'

/-- The full blocks from address `a` on, ascending (R182). -/
def fullBlocks (rd : Nat → Nat → Got Bytes) (batch : Nat) (r : BitVec 128) (k : DerivedKey) :
    Nat → Nat → Comb → Got Comb
  | 0, _, c => .data c
  | n + 1, a, c =>
    (rd a nhBlockBytes).bind fun x => fullBlocks rd batch r k n (a + nhBlockBytes) (fullBlock batch r k x c)

/-- Zero-pad to the next 16-byte boundary (R184). -/
def padded (x : Bytes) : Bytes := x ++ List.replicate (ceil16 x.length - x.length) 0

/-- The final partial block: padded in `st.PBUF`, then hashed and appended (R184). -/
def partialBlock (k : DerivedKey) (x : Bytes) (c : Comb) : Comb :=
  pushDigest k (padded x) ⟨c.h, { c.work with pbuf := padded x }⟩

/-- The final partial block at address `a`, if there is one (R182). -/
def lastBlock (rd : Nat → Nat → Got Bytes) (k : DerivedKey) (a n : Nat) (c : Comb) : Got Comb :=
  if 0 < n then (rd a n).bind fun x => .data (partialBlock k x c) else .data c

/-- Fold what is left in the digest buffer (R185). -/
def finalFlush (r : BitVec 128) (c : Comb) : Comb := if 0 < c.work.dcnt then flush r c else c

/-- `combine(a, L)` up to its finalize (R182), for reads `rd`, batch size `batch` and multiplier `r`. -/
def combineRun (rd : Nat → Nat → Got Bytes) (batch : Nat) (r : BitVec 128) (k : DerivedKey) (a len : Nat) (c : Comb) :
    Got Comb :=
  (fullBlocks rd batch r k (len / nhBlockBytes) a c).bind fun c₁ =>
  (lastBlock rd k (a + nhBlockBytes * (len / nhBlockBytes)) (len % nhBlockBytes) c₁).bind fun c₂ =>
  .data (finalFlush r c₂)

/-- `combine(lat.SRC_ADDR, lat.SRC_LEN)` of the running command: a fresh accumulator and an empty digest buffer (R182). -/
def combine (s : State) : Got Comb :=
  combineRun (memRead s .src) s.cfg.nhBatch (clamp (polyKey s.keyram)) s.keyram (latSrc s) (latLen s)
    ⟨0, { s.work with dbuf := [], dcnt := 0 }⟩

/-- Store what the combiner leaves (R181, R191). -/
def storeComb (c : Comb) (s : State) : State :=
  { s with
    r := clamp (polyKey s.keyram)
    h := c.h
    work := c.work
    pd := finalize c.h
    status := { s.status with polyValid := true } }

/-- `COMBINE` (R181, R189). -/
def execCombine (s : State) : Host.Outcome State Fault Refusal :=
  check s.status.keyValid .keyNotValid 0 s <|
  checkRange s.lat.srcAddr (latLen s) s <|
  launch (latSrc s) (latLen s) s <|
  onRead (combine s) spoilAcc s fun c =>
  .next (complete (storeComb c s))

end Sys2Proof.Machine
end

