-- ==== Sys2Proof/Machine/Control.lean ====
section
/-! DEFINITION. `NOP` (spec/40_control.md R110). -/

namespace Sys2Proof.Machine

open Sys2Proof

/-- `NOP` completes and does nothing else (R110). -/
def execNop (s : State) : Host.Outcome State Fault Refusal := .next (complete s)

end Sys2Proof.Machine
end

