-- ==== Sys2Proof/Machine/Hasher.lean ====
section
/-! DEFINITION. The command `HASH` (spec/45_hasher.md). -/

namespace Sys2Proof.Machine

open Sys2Proof

/-- Store the final digest (R37, R201). -/
def storeHash (hd : Str32) (s : State) : State := { s with hd := hd }

/-- A `PRIM_FAULT` of `HASH` (R204): the template and the accumulator are not valid. -/
def spoilHash (s : State) : State := dropTemplate (spoilAcc s)

/-- `HASH` (R201, R204). The template is not changed (R203). -/
def execHash (s : State) : Host.Outcome State Fault Refusal :=
  check s.status.keyValid .keyNotValid 0 s <|
  check s.status.tplValid .tplNotValid 0 s <|
  checkRange s.lat.srcAddr (latLen s) s <|
  launch (latSrc s) (latLen s) s <|
  onRead (combine s) spoilAcc s fun c =>
  onPort (kmacFinalRequest s (latLen s) (finalize c.h)) spoilHash s fun hd =>
  .next (complete (storeHash hd (storeComb c s)))

end Sys2Proof.Machine
end

