-- ==== Sys2Proof/Machine/KeyDerivation.lean ====
section
/-! DEFINITION. `KDF`, `KEYLOAD` and `TPL_INIT` (spec/41_keyderivation.md). -/

namespace Sys2Proof.Machine

open Sys2Proof

/-- Store a derived key: the key is valid, and no template or accumulator of an older key is (R121, R124, R276). -/
def storeKey (k : DerivedKey) (s : State) : State :=
  { s with
    keyram := k
    status := { s.status with keyValid := true, tplValid := false, polyValid := false } }

/-- Store a template (R127). -/
def storeTemplate (t : Template) (s : State) : State :=
  { s with tpl := t, status := { s.status with tplValid := true } }

/-- How many personalization bytes a command reads: all of `CTX` at the point where the string is bound, none at the other
(R129). -/
def boundLen (s : State) (point : PersBind) : Nat := if s.cfg.persBind = point then latCtxLen s else 0

/-- `check_range` of the personalization range, only at the point where the string is bound (R121, R127). -/
def checkContext (point : PersBind) (s : State) (k : Host.Outcome State Fault Refusal) :
    Host.Outcome State Fault Refusal :=
  if s.cfg.persBind = point then checkRange s.lat.ctxAddr (latCtxLen s) s k else k

/-- The personalization string at a binding point: read there, the empty string at the other point (R122, R129). -/
def readContext (point : PersBind) (s : State) : Got Bytes := memRead s .ctx (latCtx s) (boundLen s point)

/-- `KDF` (R121). -/
def execKdf (s : State) : Host.Outcome State Fault Refusal :=
  check (decide (minSeedBytes ≤ latLen s)) .invalidSeed 0 s <|
  checkContext .kdf s <|
  checkRange s.lat.srcAddr (latLen s) s <|
  launch (latCtx s) (boundLen s .kdf) s <|
  launch (latSrc s) (latLen s) s <|
  onRead (readContext .kdf s) spoilKey s fun ctx =>
  onRead (memRead s .src (latSrc s) (latLen s)) spoilKey s fun seed =>
  onPort (xofRequest s ctx seed) spoilKey s fun out =>
  .next (complete (storeKey out s))

/-- `KEYLOAD` (R124). -/
def execKeyload (s : State) : Host.Outcome State Fault Refusal :=
  check (decide (latLen s = keyBytes)) .invalidKeyLength 0 s <|
  checkRange s.lat.srcAddr keyBytes s <|
  launch (latSrc s) keyBytes s <|
  onRead (memRead s .src (latSrc s) keyBytes) spoilKey s fun k =>
  .next (complete (storeKey (packBytes 33152 k) s))

/-- `TPL_INIT` (R127, R128). -/
def execTplInit (s : State) : Host.Outcome State Fault Refusal :=
  check s.status.keyValid .keyNotValid 0 s <|
  checkContext .mac s <|
  launch (latCtx s) (boundLen s .mac) s <|
  onRead (readContext .mac s) id s fun ctx =>
  onPort (kmacInitRequest s (kmacKey s.keyram) ctx) dropTemplate s fun t =>
  .next (complete (storeTemplate t s))

end Sys2Proof.Machine
end

