-- ==== Sys2Proof/Machine/Dispatch.lean ====
section
/-! DEFINITION. One arm per command: the checks after decoding and the execution of the running command (spec/60_exceptions.md R222). -/

namespace Sys2Proof.Machine

open Sys2Proof

/-- The meaning of a decoded command in the state that runs it. -/
def exec (i : Instr) (s : State) : Host.Outcome State Fault Refusal :=
  match i with
  | .nop => Sys2Proof.Machine.execNop s
  | .kdf => Sys2Proof.Machine.execKdf s
  | .keyload => Sys2Proof.Machine.execKeyload s
  | .tplInit => Sys2Proof.Machine.execTplInit s
  | .nh n => Sys2Proof.Machine.execNh n s
  | .polyInit => Sys2Proof.Machine.execPolyInit s
  | .polyUpd => Sys2Proof.Machine.execPolyUpd s
  | .polyUpdnh => Sys2Proof.Machine.execPolyUpdnh s
  | .polyFin => Sys2Proof.Machine.execPolyFin s
  | .combine => Sys2Proof.Machine.execCombine s
  | .hash => Sys2Proof.Machine.execHash s

end Sys2Proof.Machine
end

