-- ==== Sys2Proof/Machine/Flags.lean ====
section
/-! DEFINITION. The flag and identity registers as the host reads and writes them: `STATUS`, `CTRL`, `CAPS`, and the interrupt
line they drive (spec/10_state.md R24 to R29, spec/60_exceptions.md R220, R230). -/

namespace Sys2Proof.Machine

open Sys2Proof

/-- The number of an error code (R220). -/
def ErrCode.number : ErrCode → BitVec 4
  | .none => 0
  | .illegalCmd => 1
  | .invalidSeed => 2
  | .invalidKeyLength => 3
  | .keyNotValid => 4
  | .tplNotValid => 5
  | .polyNotValid => 6
  | .badLength => 7
  | .addrRange => 8
  | .memFault => 9
  | .primFault => 10

/-- `STATUS.BUSY` (R40). -/
def busyBit (s : State) : Bool := decide (s.fsm = .busy)

/-- `STATUS` as the host reads it (R28): from bit 31 down, reserved, `LAST_OP`, reserved, `ERRCODE`, `VEC_USED`,
`POLY_VALID`, `TPL_VALID`, `KEY_VALID`, `OVR`, `ERR`, `DONE`, `BUSY`. -/
def statusWord (s : State) : Word :=
  (0 : BitVec 8) ++ s.status.lastOp ++ (0 : BitVec 4) ++ s.status.errCode.number ++ BitVec.ofBool s.status.vecUsed
    ++ BitVec.ofBool s.status.polyValid ++ BitVec.ofBool s.status.tplValid ++ BitVec.ofBool s.status.keyValid
    ++ BitVec.ofBool s.status.ovr ++ BitVec.ofBool s.status.err ++ BitVec.ofBool s.status.done
    ++ BitVec.ofBool (busyBit s)

/-- `CTRL` as the host reads it (R26). -/
def ctrlWord (s : State) : Word :=
  (0 : BitVec 29) ++ BitVec.ofBool s.ctrl.ieErr ++ BitVec.ofBool s.ctrl.ieDone ++ BitVec.ofBool s.ctrl.vecEn

/-- A host write to `CTRL` (R26): bit 31 performs the soft reset and discards the rest (R262); else the three fields take
the written bits, `VEC_EN` staying 0 when the vector datapath is not built. -/
def writeCtrl (v : Word) (s : State) : State :=
  if v.getLsbD 31 then resetBlock s
  else { s with ctrl := ⟨v.getLsbD 0 && s.cfg.vecPresent, v.getLsbD 1, v.getLsbD 2⟩ }

/-- `CAPS` (R25). -/
def capsWord (c : Config) : Word :=
  (0 : BitVec 8) ++ BitVec.ofNat 8 c.addrW ++ BitVec.ofNat 8 c.nhBatch ++ (0 : BitVec 5) ++ BitVec.ofBool c.primMayFault
    ++ BitVec.ofBool (decide (c.persBind = .mac)) ++ BitVec.ofBool c.vecPresent

/-- The interrupt output `IRQ` (R230). -/
def irq (s : State) : Bool := (s.status.done && s.ctrl.ieDone) || (s.status.err && s.ctrl.ieErr)

end Sys2Proof.Machine
end

