-- ==== Sys2Proof/Machine/Window.lean ====
section
/-! DEFINITION. The register window: which register an access reaches, what a read returns, what a write does
(spec/10_state.md R21 to R38, spec/20_memory.md R67 to R69). -/

namespace Sys2Proof.Machine

open Sys2Proof

/-- The registers of R21. -/
inductive Reg where
  | id
  | caps
  | ctrl
  | status
  | cmd
  | srcAddrLo
  | srcAddrHi
  | srcLenLo
  | srcLenHi
  | ctxAddrLo
  | ctxAddrHi
  | ctxLen
  | errAddrLo
  | errAddrHi
  | nhOut (j : Fin 8)
  | polyOut (j : Fin 4)
  | hashOut (j : Fin 8)
deriving DecidableEq, Repr

/-- The offset of a register in the window (R21). -/
def regOffset : Reg → Nat
  | .id => 0x000
  | .caps => 0x004
  | .ctrl => 0x008
  | .status => 0x00C
  | .cmd => 0x010
  | .srcAddrLo => 0x018
  | .srcAddrHi => 0x01C
  | .srcLenLo => 0x020
  | .srcLenHi => 0x024
  | .ctxAddrLo => 0x028
  | .ctxAddrHi => 0x02C
  | .ctxLen => 0x030
  | .errAddrLo => 0x038
  | .errAddrHi => 0x03C
  | .nhOut j => 0x040 + 4 * j.val
  | .polyOut j => 0x060 + 4 * j.val
  | .hashOut j => 0x080 + 4 * j.val

/-- The register at an offset; `none` is a reserved offset (R21, R23). -/
def regAt (off : Nat) : Option Reg :=
  match off with
  | 0x000 => some .id
  | 0x004 => some .caps
  | 0x008 => some .ctrl
  | 0x00C => some .status
  | 0x010 => some .cmd
  | 0x018 => some .srcAddrLo
  | 0x01C => some .srcAddrHi
  | 0x020 => some .srcLenLo
  | 0x024 => some .srcLenHi
  | 0x028 => some .ctxAddrLo
  | 0x02C => some .ctxAddrHi
  | 0x030 => some .ctxLen
  | 0x038 => some .errAddrLo
  | 0x03C => some .errAddrHi
  | 0x040 => some (.nhOut 0)
  | 0x044 => some (.nhOut 1)
  | 0x048 => some (.nhOut 2)
  | 0x04C => some (.nhOut 3)
  | 0x050 => some (.nhOut 4)
  | 0x054 => some (.nhOut 5)
  | 0x058 => some (.nhOut 6)
  | 0x05C => some (.nhOut 7)
  | 0x060 => some (.polyOut 0)
  | 0x064 => some (.polyOut 1)
  | 0x068 => some (.polyOut 2)
  | 0x06C => some (.polyOut 3)
  | 0x080 => some (.hashOut 0)
  | 0x084 => some (.hashOut 1)
  | 0x088 => some (.hashOut 2)
  | 0x08C => some (.hashOut 3)
  | 0x090 => some (.hashOut 4)
  | 0x094 => some (.hashOut 5)
  | 0x098 => some (.hashOut 6)
  | 0x09C => some (.hashOut 7)
  | _ => none

/-- The offset that a host access reaches: 32 bits wide at a multiple-of-4 offset of the 256-byte window at `REG_BASE`
(R21, R22, R67). -/
def windowOffset (c : Config) (addr width : Nat) : Option Nat :=
  if width = 32 ∧ c.regBase ≤ addr ∧ addr < c.regBase + 256 ∧ (addr - c.regBase) % 4 = 0 then some (addr - c.regBase)
  else none

/-- What a register reads as. No read has a side effect (R69); no register shows the key store, the template or the
accumulator (R41, R240). -/
def readReg (s : State) : Reg → Word
  | .id => idWord
  | .caps => capsWord s.cfg
  | .ctrl => ctrlWord s
  | .status => statusWord s
  | .cmd => 0
  | .srcAddrLo => s.opnd.srcAddrLo
  | .srcAddrHi => s.opnd.srcAddrHi
  | .srcLenLo => s.opnd.srcLenLo
  | .srcLenHi => s.opnd.srcLenHi
  | .ctxAddrLo => s.opnd.ctxAddrLo
  | .ctxAddrHi => s.opnd.ctxAddrHi
  | .ctxLen => s.opnd.ctxLen
  | .errAddrLo => s.errAddr.extractLsb' 0 32
  | .errAddrHi => s.errAddr.extractLsb' 32 32
  | .nhOut j => s.nhd.extractLsb' (32 * j.val) 32
  | .polyOut j => s.pd.extractLsb' (32 * j.val) 32
  | .hashOut j => s.hd.extractLsb' (32 * j.val) 32

/-- What an offset reads as; a reserved one reads 0 (R23). -/
def readOffset (s : State) (off : Nat) : Word :=
  match regAt off with
  | some g => readReg s g
  | none => 0

/-- What a write to a register does. Read-only registers ignore it (R24, R25, R34 to R37). -/
def writeReg (g : Reg) (v : Word) (s : State) : State :=
  match g with
  | .ctrl => writeCtrl v s
  | .status => acknowledge v s
  | .cmd => writeCmd v s
  | .srcAddrLo => { s with opnd := { s.opnd with srcAddrLo := v } }
  | .srcAddrHi => { s with opnd := { s.opnd with srcAddrHi := v } }
  | .srcLenLo => { s with opnd := { s.opnd with srcLenLo := v } }
  | .srcLenHi => { s with opnd := { s.opnd with srcLenHi := v } }
  | .ctxAddrLo => { s with opnd := { s.opnd with ctxAddrLo := v } }
  | .ctxAddrHi => { s with opnd := { s.opnd with ctxAddrHi := v } }
  | .ctxLen => { s with opnd := { s.opnd with ctxLen := v } }
  | .id | .caps | .errAddrLo | .errAddrHi | .nhOut _ | .polyOut _ | .hashOut _ => s

/-- What a write to an offset does; a write to a reserved one has no effect (R23). -/
def writeOffset (off : Nat) (v : Word) (s : State) : State :=
  match regAt off with
  | some g => writeReg g v s
  | none => s

/-- A host write access (R21, R22). -/
def hostWrite (addr width : Nat) (v : Word) (s : State) : Host.Outcome State Fault Refusal :=
  match windowOffset s.cfg addr width with
  | some off => .next (writeOffset off v s)
  | none => .refused (.badRegisterAccess addr width)

/-- A host read access: the value returned is kept in `rdata`, and the block does not change (R69). -/
def hostRead (addr width : Nat) (s : State) : Host.Outcome State Fault Refusal :=
  match windowOffset s.cfg addr width with
  | some off => .next { s with rdata := readOffset s off }
  | none => .refused (.badRegisterAccess addr width)

/-- A host store of one byte. The register window is no memory: a one-byte access there is not one the spec defines (R22). -/
def hostStore (a : Nat) (b : Byte) (s : State) : Host.Outcome State Fault Refusal :=
  if s.cfg.regBase ≤ a ∧ a < s.cfg.regBase + 256 then .refused (.badRegisterAccess a 8) else storeByte a b s

end Sys2Proof.Machine
end

