-- ==== Sys2Proof/Machine/Events.lean ====
section
/-! DEFINITION. What each move of an agent does to the machine (spec/00_scope.md R16, spec/40_control.md R100 to R105,
spec/60_exceptions.md R229). -/

namespace Sys2Proof.Machine

open Sys2Proof

/-- The engine's step. While idle it waits (R263). While a command runs, its checks and its whole execution are one step, from
the latched word on (R105, R222): decoding is the first check. -/
def engineStep (s : State) : Host.Outcome State Fault Refusal :=
  match s.fsm with
  | .idle => .next s
  | .busy =>
    match decode (commandWord s.lat) with
    | .ok i => exec i s
    | .error _ => .next (illegalCommand s)

/-- A write access performs the soft reset: `CTRL` with bit 31 set (R262). -/
def isSoftReset (c : Config) (addr width : Nat) (v : Word) : Bool :=
  decide (windowOffset c addr width = some (regOffset .ctrl)) && v.getLsbD 31

/-- The engine's step and a host write in the same step (R229): a reset discards the completion; else the completion is applied
first, then the write. -/
def engineThenWrite (addr width : Nat) (v : Word) (s : State) : Host.Outcome State Fault Refusal :=
  if isSoftReset s.cfg addr width v then hostWrite addr width v s
  else match engineStep s with
    | .next t => hostWrite addr width v t
    | .fault f => .fault f
    | .refused r => .refused r

/-- One move (R16). -/
def runEvent (e : Event) (s : State) : Host.Outcome State Fault Refusal :=
  match e with
  | .write addr width v => hostWrite addr width v s
  | .read addr width => hostRead addr width s
  | .store addr b => hostStore addr b s
  | .busError addr => .next (unmapByte addr s)
  | .port p m => .next (setPort p m s)
  | .hwReset => .next (resetBlock s)
  | .engine => engineStep s
  | .engineWrite addr width v => engineThenWrite addr width v s

/-- The state with its next input taken. -/
def popInput (es : List Event) (s : State) : State := { s with inputs := es }

/-- Who moves next: the first input, and the engine when no input waits (R281). -/
def runNext (s : State) : Host.Outcome State Fault Refusal :=
  match s.inputs with
  | [] => engineStep s
  | e :: es => runEvent e (popInput es s)

/-- The state in which the engine's next step runs the command of a word: accepted (R102), and the engine next to move. -/
def launchWord (w : Word) (s : State) : State := { accept w s with inputs := .engine :: s.inputs }

end Sys2Proof.Machine
end

