-- ==== Sys2Proof/Machine/Step.lean ====
section
/-! DEFINITION. One step of the machine, and the placing of a command where the next step runs it. -/

namespace Sys2Proof.Machine

open Sys2Proof

/-- One step: the next move of the host, the platform or the engine. -/
def step (s : State) : Host.Outcome State Fault Refusal := runNext s

/-- The block fetches no instructions (R20): a command is a word that the host writes to `CMD`. So the state in which the next
step runs it is the one right after its acceptance (R102), with the engine next to move (notes/assumptions/9.md). -/
def State.withFetchWord (s : State) (nbits w : Nat) : State := launchWord (BitVec.ofNat 32 (w % 2 ^ nbits)) s

end Sys2Proof.Machine
end

