-- ==== Sys2Proof/Machine/PolyLimb.lean ====
section
/-! DEFINITION. The 44/44/42-bit limb form of the field accumulator, as R169 of spec/43_poly.md writes it out.

It is informative: no limb is architectural (R44, R169), and no meaning of a command uses this file. It is here so that its
agreement with the residue form (R170) can be stated. The limbs are exact numbers; that the 64-bit limbs and 128-bit products
of R169 hold them is part of what is stated. -/

namespace Sys2Proof.Machine

open Sys2Proof

/-- `M44`. -/
def mask44 : Nat := 2 ^ 44 - 1

/-- `M42`. -/
def mask42 : Nat := 2 ^ 42 - 1

/-- Three limbs, worth `l0 + l1 2^44 + l2 2^88`. -/
structure Limbs where
  l0 : Nat
  l1 : Nat
  l2 : Nat
deriving DecidableEq, Repr

/-- What three limbs are worth (R161). -/
def Limbs.value (x : Limbs) : Nat := x.l0 + x.l1 * 2 ^ 44 + x.l2 * 2 ^ 88

/-- `t0 = le64(c, 0)` of a 16-byte string. -/
def lowHalf (c : Str16) : Nat := c.toNat % 2 ^ 64

/-- `t1 = le64(c, 8)` of a 16-byte string. -/
def highHalf (c : Str16) : Nat := c.toNat / 2 ^ 64

/-- The limbs of the clamped key (R161). -/
def limbKey (k : Str16) : Limbs where
  l0 := lowHalf k &&& 0xFFC0FFFFFFF
  l1 := (lowHalf k >>> 44 ||| highHalf k <<< 20) &&& 0xFFFFFC0FFFF
  l2 := highHalf k >>> 24 &&& 0x00FFFFFFC0F

/-- Add one chunk with its high bit to the limbs (R169, `update`, first three lines). -/
def limbAdd (h : Limbs) (c : Str16) : Limbs where
  l0 := h.l0 + (lowHalf c &&& mask44)
  l1 := h.l1 + ((lowHalf c >>> 44 ||| highHalf c <<< 20) &&& mask44)
  l2 := h.l2 + ((highHalf c >>> 24 &&& mask42) ||| 2 ^ 40)

/-- The three column sums `d0, d1, d2` of the schoolbook product, with `s1 = 20 r1` and `s2 = 20 r2` (R169). -/
def limbProduct (h r : Limbs) : Limbs where
  l0 := h.l0 * r.l0 + h.l1 * (r.l2 * 20) + h.l2 * (r.l1 * 20)
  l1 := h.l0 * r.l1 + h.l1 * r.l0 + h.l2 * (r.l2 * 20)
  l2 := h.l0 * r.l2 + h.l1 * r.l1 + h.l2 * r.l0

/-- The carry propagation of `update`, with the fold-back by 5 (R169). -/
def limbCarry (d : Limbs) : Limbs :=
  let d1 := d.l1 + d.l0 >>> 44
  let d2 := d.l2 + d1 >>> 44
  let h0 := (d.l0 &&& mask44) + (d2 >>> 42) * 5
  ⟨h0 &&& mask44, (d1 &&& mask44) + h0 >>> 44, d2 &&& mask42⟩

/-- `update` of one chunk (R169). -/
def limbUpdate (r h : Limbs) (c : Str16) : Limbs := limbCarry (limbProduct (limbAdd h c) r)

/-- One carry round of `finalize`: from limb 1 through limb 2 back into limbs 0 and 1 (R169). -/
def limbRound (h : Limbs) : Limbs :=
  let h2 := h.l2 + h.l1 >>> 44
  let h0 := h.l0 + (h2 >>> 42) * 5
  ⟨h0 &&& mask44, (h.l1 &&& mask44) + h0 >>> 44, h2 &&& mask42⟩

/-- `h + 5 - 2^130` in limbs, the top one modulo `2^64` (R169). -/
def limbMinusP (h : Limbs) : Limbs :=
  let g0 := h.l0 + 5
  let g1 := h.l1 + g0 >>> 44
  ⟨g0 &&& mask44, g1 &&& mask44, (h.l2 + g1 >>> 44 + (2 ^ 64 - 2 ^ 42)) % 2 ^ 64⟩

/-- Select `g` where the mask is all ones and `h` where it is zero (R169). -/
def limbSelect (mask h g : Nat) : Nat := (h &&& (2 ^ 64 - 1 - mask)) ||| (g &&& mask)

/-- `mask = ((g2 >> 63) - 1) mod 2^64` (R169). -/
def limbMask (g2 : Nat) : Nat := (g2 >>> 63 + (2 ^ 64 - 1)) % 2 ^ 64

/-- The 16 output bytes of fully carried limbs (R169, `out`). -/
def limbBytes (h : Limbs) : Str16 :=
  BitVec.ofNat 64 (h.l1 >>> 20 ||| h.l2 <<< 24) ++ BitVec.ofNat 64 (h.l0 ||| h.l1 <<< 44)

/-- `finalize` (R169). -/
def limbFinalize (h : Limbs) : Str16 :=
  let h := limbRound (limbRound h)
  let g := limbMinusP h
  let m := limbMask g.l2
  limbBytes ⟨limbSelect m h.l0 g.l0, limbSelect m h.l1 g.l1, limbSelect m h.l2 g.l2⟩

end Sys2Proof.Machine
end

