-- ==== Sys2Proof/Safety.lean ====
section
/-! DEFINITION. The terms that claims about the machine use: frames, the invariant that every step keeps, the checks of R222 as a
table, and the closed form of the poly digest. No meaning of a command uses this file. -/

namespace Sys2Proof.Machine

open Sys2Proof

/-! ## Frames -/

/-- Host memory is the same: as data, and at every address as the bus reads it. -/
abbrev SameMemory (s t : State) : Prop := t.mem = s.mem ∧ ∀ a, t.mem.get a = s.mem.get a

/-- The instance and the registers that the host sets up are the same. -/
abbrev SameSetup (s t : State) : Prop := t.cfg = s.cfg ∧ t.ctrl = s.ctrl ∧ t.opnd = s.opnd

/-- Everything outside the block is the same. -/
abbrev SameOutside (s t : State) : Prop :=
  SameMemory s t ∧ t.xofPort = s.xofPort ∧ t.kmacPort = s.kmacPort ∧ t.rdata = s.rdata ∧ t.inputs = s.inputs

/-- The key store and the template are the same. -/
abbrev SameKeys (s t : State) : Prop := t.keyram = s.keyram ∧ t.tpl = s.tpl

/-- The accumulator is the same. -/
abbrev SameAcc (s t : State) : Prop := t.r = s.r ∧ t.h = s.h

/-- The result registers and `ERR_ADDR` are the same. -/
abbrev SameResults (s t : State) : Prop := t.nhd = s.nhd ∧ t.pd = s.pd ∧ t.hd = s.hd ∧ t.errAddr = s.errAddr

/-- The command has ended: the sequencer is idle, and nothing that exists only inside a command is left (R49, R223). The values that
stand for "nothing left" and the count of draws are the model's (notes/assumptions/4.md, 6.md). -/
abbrev Ended (s t : State) : Prop :=
  t.fsm = .idle ∧ t.lat = Lat.none ∧ t.work = Work.none ∧ t.raced = [] ∧ t.draws = s.draws + 1

/-! ## The invariant -/

/-- A valid template is keyed with the KMAC sub-key of the key store, which is valid (R131, R276); with the personalization
bound at `KDF` its context is empty (R127). -/
abbrev TemplateInv (s : State) : Prop :=
  s.status.tplValid = true →
    s.status.keyValid = true ∧ s.tpl.tk = kmacKey s.keyram ∧ (s.cfg.persBind = .kdf → s.tpl.tc = [])

/-- A valid accumulator has the clamped Poly sub-key of the key store, which is valid, as its multiplier (R44, R276). -/
abbrev AccInv (s : State) : Prop :=
  s.status.polyValid = true → s.status.keyValid = true ∧ s.r = clamp (polyKey s.keyram)

/-- While idle, nothing that exists only inside a command is left (R49). -/
abbrev IdleInv (s : State) : Prop := s.fsm = .idle → s.lat = Lat.none ∧ s.work = Work.none ∧ s.raced = []

/-- While a command runs, acceptance has cleared the completion bits, `LAST_OP` and `VEC_USED` are those of the latched word,
and the working state is the initial one (R40, R46, R48, R102). -/
abbrev BusyInv (s : State) : Prop :=
  s.fsm = .busy →
    s.status.done = false ∧ s.status.err = false ∧ s.status.errCode = .none ∧ s.status.lastOp = s.lat.op ∧
    s.work = { Work.none with vecSel := s.lat.vecEn && s.cfg.vecPresent } ∧
    s.status.vecUsed = (showsVector (commandWord s.lat) && s.work.vecSel)

/-- Without the vector datapath `CTRL.VEC_EN` reads 0 and the datapath is never used (R26, R146). -/
abbrev VectorInv (s : State) : Prop :=
  s.cfg.vecPresent = false → s.ctrl.vecEn = false ∧ s.status.vecUsed = false

/-- `ERR` is never set without a code (R224, R29). -/
abbrev ErrorInv (s : State) : Prop := s.status.err = true → s.status.errCode ≠ .none

/-- Host memory is in canonical form, inside the address space of the instance (R51). -/
abbrev MemoryInv (s : State) : Prop := s.mem.wf ∧ ∀ c ∈ s.mem, c.1 < 2 ^ s.cfg.addrW

/-- The invariant of the machine. -/
abbrev Inv (s : State) : Prop :=
  s.cfg.wf ∧ TemplateInv s ∧ AccInv s ∧ IdleInv s ∧ BusyInv s ∧ VectorInv s ∧ ErrorInv s ∧ MemoryInv s

/-! ## The checks of R222 -/

/-- One check: whether it applies to the command, whether it holds, its error code and the address it records. -/
structure Check where
  applies : Bool
  holds : Bool
  code : ErrCode
  addr : DWord
deriving DecidableEq, Repr

/-- The commands that need a valid key (R222 step 2). -/
def needsKey : Instr → Bool
  | .tplInit | .nh _ | .polyInit | .combine | .hash => true
  | .nop | .kdf | .keyload | .polyUpd | .polyUpdnh | .polyFin => false

/-- The commands that need a valid accumulator (R222 step 4). -/
def needsPoly : Instr → Bool
  | .polyUpd | .polyUpdnh | .polyFin => true
  | .nop | .kdf | .keyload | .tplInit | .nh _ | .polyInit | .combine | .hash => false

/-- The operand length of a command is legal (R222 step 5). -/
def lengthOk (s : State) : Instr → Bool
  | .kdf => decide (16 ≤ latLen s)
  | .keyload => decide (latLen s = 4144)
  | .nh n => decide (1 ≤ n) && decide (n ≤ 64)
  | .polyUpd => decide (latLen s % 16 = 0)
  | .nop | .tplInit | .polyInit | .polyUpdnh | .polyFin | .combine | .hash => true

/-- The error of an illegal operand length (R220). -/
def lengthError : Instr → ErrCode
  | .kdf => .invalidSeed
  | .keyload => .invalidKeyLength
  | .nop | .tplInit | .nh _ | .polyInit | .polyUpd | .polyUpdnh | .polyFin | .combine | .hash => .badLength

/-- The length of the context range that a command reads (R31, R33, R129); 0 for a command that reads none. -/
def ctxReadLen (s : State) : Instr → Nat
  | .kdf => boundLen s .kdf
  | .tplInit => boundLen s .mac
  | .nop | .keyload | .nh _ | .polyInit | .polyUpd | .polyUpdnh | .polyFin | .combine | .hash => 0

/-- The length of the source range that a command reads (R31, R32, R141); 0 for a command that reads none. -/
def srcReadLen (s : State) : Instr → Nat
  | .kdf | .keyload | .polyUpd | .combine | .hash => latLen s
  | .nh n => 16 * n
  | .nop | .tplInit | .polyInit | .polyUpdnh | .polyFin => 0

/-- Whether a command reads the context range: `KDF` when the personalization is bound there, `TPL_INIT` when it is bound
there (R222 step 6). -/
def readsCtx (s : State) : Instr → Bool
  | .kdf => decide (s.cfg.persBind = .kdf)
  | .tplInit => decide (s.cfg.persBind = .mac)
  | .nop | .keyload | .nh _ | .polyInit | .polyUpd | .polyUpdnh | .polyFin | .combine | .hash => false

/-- Whether a command reads the source range (R31). -/
def readsSrc : Instr → Bool
  | .kdf | .keyload | .nh _ | .polyUpd | .combine | .hash => true
  | .nop | .tplInit | .polyInit | .polyUpdnh | .polyFin => false

/-- Steps 2 to 6 of R222 for a command, in order. -/
def checksOf (i : Instr) (s : State) : List Check :=
  [⟨needsKey i, s.status.keyValid, .keyNotValid, 0⟩,
   ⟨decide (i = .hash), s.status.tplValid, .tplNotValid, 0⟩,
   ⟨needsPoly i, s.status.polyValid, .polyNotValid, 0⟩,
   ⟨true, lengthOk s i, lengthError i, 0⟩,
   ⟨readsCtx s i, rangeOk s s.lat.ctxAddr.toNat (ctxReadLen s i), .addrRange, s.lat.ctxAddr⟩,
   ⟨readsSrc i, rangeOk s s.lat.srcAddr.toNat (srcReadLen s i), .addrRange, s.lat.srcAddr⟩]

/-- The first check that fails, if any (R222). -/
def firstFailed (i : Instr) (s : State) : Option Check := (checksOf i s).find? fun c => c.applies && !c.holds

/-- Every check of the checks phase passes. -/
abbrev ChecksPass (i : Instr) (s : State) : Prop := firstFailed i s = none

/-- No range the command reads holds an address with read side effects (R271). -/
abbrev LaunchAllowed (i : Instr) (s : State) : Prop :=
  hasReadEffects s (latCtx s) (ctxReadLen s i) = false ∧ hasReadEffects s (latSrc s) (srcReadLen s i) = false

/-- A port answers requests with data: it does not stay silent, and it signals no error that counts (R74, R75). -/
abbrev PortAnswers (s : State) (m : PortMode) : Prop :=
  m = .answers ∨ (m = .errs ∧ s.cfg.primMayFault = false)

/-- A port answers requests with an error (R74). -/
abbrev PortErrs (s : State) (m : PortMode) : Prop := m = .errs ∧ s.cfg.primMayFault = true

/-- The context bytes that a command reads are these. -/
abbrev CtxBytes (i : Instr) (s : State) (b : Bytes) : Prop :=
  memRead s .ctx (latCtx s) (ctxReadLen s i) = .data b

/-- The source bytes that a command reads are these. -/
abbrev SrcBytes (i : Instr) (s : State) (b : Bytes) : Prop :=
  memRead s .src (latSrc s) (srcReadLen s i) = .data b

/-- The read of the context range faults first at this address. -/
abbrev CtxFault (i : Instr) (s : State) (f : Nat) : Prop :=
  memRead s .ctx (latCtx s) (ctxReadLen s i) = .fault f

/-- The read of the source range faults first at this address. -/
abbrev SrcFault (i : Instr) (s : State) (f : Nat) : Prop :=
  memRead s .src (latSrc s) (srcReadLen s i) = .fault f

/-! ## The closed form of the poly digest (R187) -/

/-- The NH digest of one block, as bytes. -/
def digestBytes (k : DerivedKey) (x : Bytes) : Bytes := unpackBytes (nhHash k x) 0 32

/-- The digests of the full 1024-byte blocks of a message, in order. -/
def fullDigests (k : DerivedKey) (msg : Bytes) : Bytes :=
  (List.range (msg.length / nhBlockBytes)).flatMap fun b => digestBytes k (slice msg (nhBlockBytes * b) nhBlockBytes)

/-- The final partial block of a message, empty when the length is a multiple of 1024. -/
def lastBytes (msg : Bytes) : Bytes := msg.drop (nhBlockBytes * (msg.length / nhBlockBytes))

/-- The digest of the final partial block, if there is one. -/
def lastDigest (k : DerivedKey) (msg : Bytes) : Bytes :=
  if lastBytes msg = [] then [] else digestBytes k (padded (lastBytes msg))

/-- `fold(0, NH(K,B_0) ‖ … ‖ NH(K,B_{k-1}) [‖ NH(K, T ‖ 0…)])` (R187). -/
def polyResidue (k : DerivedKey) (msg : Bytes) : Fin polyP :=
  fold (clamp (polyKey k)) 0 (fullDigests k msg ++ lastDigest k msg)

/-- `poly_digest(msg)` (R187). -/
def polyDigest (k : DerivedKey) (msg : Bytes) : Str16 := finalize (polyResidue k msg)

end Sys2Proof.Machine
end

