-- ==== Sys2Proof/Certificates/Slice0/Obligations.lean ====
section
/-! DEFINITION. The statements for the provers. Rules R<n> are those of spec/. A statement that needs something of the state says it
in hypotheses on the state and the operands alone. -/

open Sys2Proof Sys2Proof.Machine

/-! ## Encoding -/

/-- Decoding the word of a well-formed command gives the command back, with its unit count (R80, R81, R83). -/
def Obligations.DecodeOfEncodeIsTheCommand : Prop :=
  ∀ i : Instr, i.wellFormed = true → decode (encode i) = .ok i

/-- A word that decodes is the word of a well-formed command, bit for bit (R80, R82, R83). -/
def Obligations.EncodeOfDecodeIsTheWord : Prop :=
  ∀ (w : Word) (i : Instr), decode w = .ok i → i.wellFormed = true ∧ encode i = w

/-- The command words of R89, and its examples of words that do not decode. -/
def Obligations.ListedWordsDecode : Prop :=
  decode 0x00000000 = .ok .nop ∧ decode 0x00000001 = .ok .kdf ∧ decode 0x00000002 = .ok .keyload ∧
  decode 0x00000003 = .ok .tplInit ∧
  (∀ n < 256, decode (BitVec.ofNat 32 (0x00000010 + 0x100 * n)) = .ok (.nh n)) ∧
  decode 0x00000110 = .ok (.nh 1) ∧ decode 0x00000210 = .ok (.nh 2) ∧ decode 0x00000310 = .ok (.nh 3) ∧
  decode 0x00004010 = .ok (.nh 64) ∧
  decode 0x00000020 = .ok .polyInit ∧ decode 0x00000021 = .ok .polyUpd ∧ decode 0x00000022 = .ok .polyUpdnh ∧
  decode 0x00000023 = .ok .polyFin ∧ decode 0x00000030 = .ok .combine ∧ decode 0x00000031 = .ok .hash ∧
  decode 0x00000004 = .error .reservedOp ∧ decode 0x00000120 = .error .argument ∧
  decode 0x00010010 = .error .reservedBits ∧
  decode 0x00004110 = .ok (.nh 65) ∧ decode 0x00000010 = .ok (.nh 0) ∧
  (∀ n s, s.status.keyValid = true → (n = 65 ∨ n = 0) →
    ∃ t, exec (.nh n) s = .next t ∧ t.status.err = true ∧ t.status.errCode = .badLength)

/-- A word is illegal exactly when `RSV ≠ 0`, or `OP` is not listed, or `ARG ≠ 0` with an `OP` other than `NH`. It is accepted while
the block is idle; the engine then completes it at once with `ILLEGAL_CMD` and changes nothing else (R85). -/
def Obligations.IllegalWordsCompleteWithIllegalCmd : Prop :=
  ∀ (s : State) (w : Word), s.fsm = .idle →
    (w.toNat / 65536 ≠ 0 ∨
      w.toNat % 256 ∉ [0x00, 0x01, 0x02, 0x03, 0x10, 0x20, 0x21, 0x22, 0x23, 0x30, 0x31] ∨
      (w.toNat % 256 ≠ 0x10 ∧ w.toNat / 256 % 256 ≠ 0) ↔ ∃ r, decode w = .error r) ∧
    ((∃ r, decode w = .error r) →
      ∃ t, engineStep (writeCmd w s) = .next t ∧
        t.status = { s.status with done := true, err := true, errCode := .illegalCmd, vecUsed := false,
                                   lastOp := BitVec.ofNat 8 w.toNat } ∧
        SameSetup s t ∧ SameOutside s t ∧ SameKeys s t ∧ SameAcc s t ∧ SameResults s t ∧ t.fsm = .idle)

/-! ## Steps -/

/-- When a command runs and its latched word decodes, the engine's move is the meaning of the command (R105). That the inputs say who
moves, and that the engine moves when none waits, is the model's choice (notes/assumptions/10.md). A command placed by `withFetchWord`
is run by the very next step, the model's own way of placing one (notes/assumptions/9.md). -/
def Obligations.StepRunsTheDecodedCommand : Prop :=
  ∀ (s : State) (i : Instr),
    (s.fsm = .busy → decode (commandWord s.lat) = .ok i →
      (s.inputs = [] → step s = exec i s) ∧
      (∀ es, s.inputs = .engine :: es → step s = exec i { s with inputs := es })) ∧
    (i.wellFormed = true → step (s.withFetchWord 32 (encode i).toNat) = exec i (accept (encode i) s))

/-- A host write of a word to `CMD` while idle latches the operands and the datapath choice and changes nothing but `lat`, the
sequencer, the working state and `STATUS`. In every state, so after acceptance too, a write to `CTRL` or to an operand register is
read back from the register it names and changes no other register, neither `lat` nor the running command (R102). -/
def Obligations.AcceptanceLatchesTheOperands : Prop :=
  (∀ (s : State) (w : Word), s.fsm = .idle →
    ∃ t, hostWrite (s.cfg.regBase + 0x010) 32 w s = .next t ∧
      t.lat.op.toNat = w.toNat % 256 ∧ t.lat.arg.toNat = w.toNat / 256 % 256 ∧ t.lat.rsv.toNat = w.toNat / 65536 ∧
      t.lat.srcAddr.toNat = s.opnd.srcAddrHi.toNat * 2 ^ 32 + s.opnd.srcAddrLo.toNat ∧
      t.lat.srcLen.toNat = s.opnd.srcLenHi.toNat * 2 ^ 32 + s.opnd.srcLenLo.toNat ∧
      t.lat.ctxAddr.toNat = s.opnd.ctxAddrHi.toNat * 2 ^ 32 + s.opnd.ctxAddrLo.toNat ∧
      t.lat.ctxLen = s.opnd.ctxLen ∧ t.lat.vecEn = s.ctrl.vecEn ∧
      t.work.vecSel = (s.ctrl.vecEn && s.cfg.vecPresent) ∧ t.fsm = .busy ∧
      t.status = { s.status with
        done := false, err := false, errCode := .none, lastOp := t.lat.op, vecUsed := t.status.vecUsed } ∧
      (t.status.vecUsed = true ↔ t.work.vecSel = true ∧
        ((∃ n, decode w = .ok (.nh n)) ∨ decode w = .ok .combine ∨ decode w = .ok .hash)) ∧
      SameSetup s t ∧ SameOutside s t ∧ SameKeys s t ∧ SameAcc s t ∧ SameResults s t ∧ t.draws = s.draws) ∧
  (∀ (s : State) (off : Nat) (v : Word), off ∈ [0x018, 0x01C, 0x020, 0x024, 0x028, 0x02C, 0x030] →
    ∃ t, hostWrite (s.cfg.regBase + off) 32 v s = .next t ∧ t = { s with opnd := t.opnd } ∧
      readOffset t off = v ∧ ∀ off', off' ≠ off → readOffset t off' = readOffset s off') ∧
  (∀ (s : State) (v : Word), v.getLsbD 31 = false →
    ∃ t, hostWrite (s.cfg.regBase + 0x008) 32 v s = .next t ∧
      t = { s with ctrl := ⟨v.getLsbD 0 && s.cfg.vecPresent, v.getLsbD 1, v.getLsbD 2⟩ } ∧
      ∀ off', off' ≠ 0x008 → readOffset t off' = readOffset s off')

/-- A `CMD` write while a command runs is dropped and sets `OVR`, and nothing else changes. Only a `STATUS` write with bit 3 set or
a reset takes `OVR` back (R103). -/
def Obligations.CommandWhileBusyIsDropped : Prop :=
  (∀ (s : State) (w : Word), s.fsm = .busy →
    hostWrite (s.cfg.regBase + 0x010) 32 w s = .next { s with status := { s.status with ovr := true } }) ∧
  (∀ (e : Event) (s t : State), runEvent e s = .next t → s.status.ovr = true → t.status.ovr = false →
    e = .hwReset ∨
    ∃ addr width v, (e = .write addr width v ∨ e = .engineWrite addr width v) ∧
      (windowOffset s.cfg addr width = some 0x00C ∧ v.getLsbD 3 = true ∨
       windowOffset s.cfg addr width = some 0x008 ∧ v.getLsbD 31 = true))

/-- In one step, a reset takes precedence over a completion, which is discarded; a completion comes before a `STATUS` write; and
a `CMD` write comes after a completion, so it is accepted (R229). -/
def Obligations.SameStepEventsAreOrdered : Prop :=
  (∀ (s : State) (v : Word), v.getLsbD 31 = true →
    runEvent (.engineWrite (s.cfg.regBase + 0x008) 32 v) s = runEvent .hwReset s) ∧
  (∀ (s t : State) (v : Word), engineStep s = .next t →
    runEvent (.engineWrite (s.cfg.regBase + 0x00C) 32 v) s = .next (acknowledge v t) ∧
    (t.fsm = .idle → runEvent (.engineWrite (s.cfg.regBase + 0x010) 32 v) s = .next (accept v t)))

/-! ## The register window -/

/-- The offsets of R21 and the register found at an offset agree, and every register is at a multiple of 4 inside the window. In every
state, each operand register is at its offset of R21: a write there sets it and changes nothing else, and a read there returns it
(R31, R32, R33, R68). -/
def Obligations.RegisterMapAgrees : Prop :=
  (∀ g : Reg, regAt (regOffset g) = some g ∧ regOffset g % 4 = 0 ∧ regOffset g < 256) ∧
  (∀ (off : Nat) (g : Reg), regAt off = some g → regOffset g = off) ∧
  (∀ (s : State) (v : Word),
    hostWrite (s.cfg.regBase + 0x018) 32 v s = .next { s with opnd := { s.opnd with srcAddrLo := v } } ∧
    hostWrite (s.cfg.regBase + 0x01C) 32 v s = .next { s with opnd := { s.opnd with srcAddrHi := v } } ∧
    hostWrite (s.cfg.regBase + 0x020) 32 v s = .next { s with opnd := { s.opnd with srcLenLo := v } } ∧
    hostWrite (s.cfg.regBase + 0x024) 32 v s = .next { s with opnd := { s.opnd with srcLenHi := v } } ∧
    hostWrite (s.cfg.regBase + 0x028) 32 v s = .next { s with opnd := { s.opnd with ctxAddrLo := v } } ∧
    hostWrite (s.cfg.regBase + 0x02C) 32 v s = .next { s with opnd := { s.opnd with ctxAddrHi := v } } ∧
    hostWrite (s.cfg.regBase + 0x030) 32 v s = .next { s with opnd := { s.opnd with ctxLen := v } }) ∧
  (∀ s : State,
    readOffset s 0x018 = s.opnd.srcAddrLo ∧ readOffset s 0x01C = s.opnd.srcAddrHi ∧
    readOffset s 0x020 = s.opnd.srcLenLo ∧ readOffset s 0x024 = s.opnd.srcLenHi ∧
    readOffset s 0x028 = s.opnd.ctxAddrLo ∧ readOffset s 0x02C = s.opnd.ctxAddrHi ∧
    readOffset s 0x030 = s.opnd.ctxLen)

/-- `ID` always reads "NHP1", `CAPS` shows the parameters of the instance in their fields and 0x00401001 for the defaults, and writes
to both are ignored (R24, R25). -/
def Obligations.IdentityRegistersAreConstant : Prop :=
  (∀ s : State, readOffset s 0x000 = 0x4E485031) ∧
  (∀ s : State, s.cfg.wf →
    (readOffset s 0x004).toNat =
      s.cfg.vecPresent.toNat + 2 * (if s.cfg.persBind = .mac then 1 else 0) + 4 * s.cfg.primMayFault.toNat +
        2 ^ 8 * s.cfg.nhBatch + 2 ^ 16 * s.cfg.addrW) ∧
  (∀ s : State, s.cfg = Config.default → readOffset s 0x004 = 0x00401001) ∧
  (∀ (s : State) (off : Nat) (v : Word), off = 0x000 ∨ off = 0x004 →
    hostWrite (s.cfg.regBase + off) 32 v s = .next s)

/-- `STATUS` shows its fields at the places of R28, and 0 elsewhere; `ERRCODE` shows the numbers of R220. -/
def Obligations.StatusShowsItsFields : Prop :=
  (ErrCode.none.number = 0 ∧ ErrCode.illegalCmd.number = 1 ∧ ErrCode.invalidSeed.number = 2 ∧
    ErrCode.invalidKeyLength.number = 3 ∧ ErrCode.keyNotValid.number = 4 ∧ ErrCode.tplNotValid.number = 5 ∧
    ErrCode.polyNotValid.number = 6 ∧ ErrCode.badLength.number = 7 ∧ ErrCode.addrRange.number = 8 ∧
    ErrCode.memFault.number = 9 ∧ ErrCode.primFault.number = 10) ∧
  ∀ s : State,
    (readOffset s 0x00C).toNat =
      (if s.fsm = .busy then 1 else 0) + 2 * s.status.done.toNat + 4 * s.status.err.toNat + 8 * s.status.ovr.toNat +
        16 * s.status.keyValid.toNat + 32 * s.status.tplValid.toNat + 64 * s.status.polyValid.toNat +
        128 * s.status.vecUsed.toNat + 256 * s.status.errCode.number.toNat + 65536 * s.status.lastOp.toNat

/-- A write to `STATUS` clears `DONE`, `ERR`, `OVR` where bits 1, 2, 3 are set and changes nothing else; in the step of a completion
the completion comes first (R29). -/
def Obligations.StatusWriteClearsThreeBits : Prop :=
  (∀ (s : State) (v : Word),
    ∃ t, hostWrite (s.cfg.regBase + 0x00C) 32 v s = .next t ∧
      t = { s with status := t.status } ∧
      t.status = { s.status with done := t.status.done, err := t.status.err, ovr := t.status.ovr } ∧
      (t.status.done = true ↔ s.status.done = true ∧ v.getLsbD 1 = false) ∧
      (t.status.err = true ↔ s.status.err = true ∧ v.getLsbD 2 = false) ∧
      (t.status.ovr = true ↔ s.status.ovr = true ∧ v.getLsbD 3 = false)) ∧
  (∀ (s t : State) (v : Word), engineStep s = .next t → t.cfg = s.cfg →
    runEvent (.engineWrite (s.cfg.regBase + 0x00C) 32 v) s = hostWrite (s.cfg.regBase + 0x00C) 32 v t)

/-- A write to `CTRL` takes effect at once in every state and leaves the running command alone: bits 2:0 are stored, `VEC_EN` as 0
when the vector datapath is not built, and read back with 0 in every other bit; with bit 31 set it performs the soft reset and
every field is 0 (R26). -/
def Obligations.CtrlWriteStoresThreeBits : Prop :=
  (∀ (s : State) (v : Word), v.getLsbD 31 = false →
    ∃ t, hostWrite (s.cfg.regBase + 0x008) 32 v s = .next t ∧ t = { s with ctrl := t.ctrl } ∧
      (readOffset t 0x008).toNat =
        (v.getLsbD 0 && s.cfg.vecPresent).toNat + 2 * (v.getLsbD 1).toNat + 4 * (v.getLsbD 2).toNat) ∧
  (∀ (s : State) (v : Word), v.getLsbD 31 = true →
    ∃ t, hostWrite (s.cfg.regBase + 0x008) 32 v s = .next t ∧ runEvent .hwReset s = .next t ∧
      readOffset t 0x008 = 0 ∧ t.ctrl = ⟨false, false, false⟩)

/-- After a reset in any state every offset of the window reads 0 but `ID` and `CAPS`, the interrupt is low, the block is idle, no
key, template or accumulator is valid, and nothing outside the block has changed; the state after power-on is one such, with the
defaults of R5 (R260). What the unspecified items hold is not stated. -/
def Obligations.ResetLeavesTheListedValues : Prop :=
  (∀ s : State, ∃ t, runEvent .hwReset s = .next t ∧
    (∀ off, readOffset t off = if off = 0x000 then 0x4E485031 else if off = 0x004 then capsWord s.cfg else 0) ∧
    irq t = false ∧ t.fsm = .idle ∧ t.status.keyValid = false ∧ t.status.tplValid = false ∧
    t.status.polyValid = false ∧ t.cfg = s.cfg ∧ SameOutside s t ∧ engineStep t = .next t) ∧
  (∀ off, readOffset State.reset off = if off = 0x000 then 0x4E485031 else if off = 0x004 then 0x00401001 else 0) ∧
  irq State.reset = false ∧ State.reset.fsm = .idle ∧ State.reset.status.keyValid = false ∧
  State.reset.status.tplValid = false ∧ State.reset.status.polyValid = false

/-- A write to `CTRL` with bit 31 set is a reset in any state: the running command is gone, key, template and accumulator are lost,
results, flags, operands and `CTRL` are 0, `OVR` too; the other written bits do not matter (R262). -/
def Obligations.SoftResetClearsTheBlock : Prop :=
  ∀ (s : State) (v : Word), v.getLsbD 31 = true →
    ∃ t, hostWrite (s.cfg.regBase + 0x008) 32 v s = .next t ∧ runEvent .hwReset s = .next t ∧
      t.fsm = .idle ∧ t.status = ⟨false, false, false, false, false, false, false, .none, 0⟩ ∧
      readOffset t 0x008 = 0 ∧ t.opnd = ⟨0, 0, 0, 0, 0, 0, 0⟩ ∧ t.errAddr = 0 ∧ t.nhd = 0 ∧ t.pd = 0 ∧ t.hd = 0 ∧
      t.raced = [] ∧ SameOutside s t ∧ t.cfg = s.cfg

/-- A reserved offset reads 0 and ignores writes. A reserved bit of `CAPS`, `CTRL` or `STATUS` reads 0, and the value written to a
reserved bit is ignored (R23). -/
def Obligations.ReservedPlacesReadZero : Prop :=
  (∀ (s : State) (off : Nat) (v : Word), off % 4 = 0 →
    (off = 0x014 ∨ off = 0x034 ∨ (0x070 ≤ off ∧ off ≤ 0x07C) ∨ (0x0A0 ≤ off ∧ off ≤ 0x0FC)) →
    hostRead (s.cfg.regBase + off) 32 s = .next { s with rdata := 0 } ∧
    hostWrite (s.cfg.regBase + off) 32 v s = .next s) ∧
  (∀ (s : State) (b : Nat),
    ((3 ≤ b ∧ b ≤ 7) ∨ 24 ≤ b → (readOffset s 0x004).getLsbD b = false) ∧
    (3 ≤ b → (readOffset s 0x008).getLsbD b = false) ∧
    ((12 ≤ b ∧ b ≤ 15) ∨ 24 ≤ b → (readOffset s 0x00C).getLsbD b = false)) ∧
  (∀ (s : State) (v v' : Word),
    (v.getLsbD 0 = v'.getLsbD 0 → v.getLsbD 1 = v'.getLsbD 1 → v.getLsbD 2 = v'.getLsbD 2 →
      v.getLsbD 31 = v'.getLsbD 31 → writeOffset 0x008 v s = writeOffset 0x008 v' s) ∧
    (v.getLsbD 1 = v'.getLsbD 1 → v.getLsbD 2 = v'.getLsbD 2 → v.getLsbD 3 = v'.getLsbD 3 →
      writeOffset 0x00C v s = writeOffset 0x00C v' s))

/-- The model refuses an access to the window that is not 32 bits wide at a multiple-of-4 offset, and answers every one that is
(R22). -/
def Obligations.OddAccessesAreRefused : Prop :=
  ∀ (s : State) (off width : Nat) (v : Word), off < 256 →
    (width ≠ 32 ∨ off % 4 ≠ 0 →
      hostWrite (s.cfg.regBase + off) width v s = .refused (.badRegisterAccess (s.cfg.regBase + off) width) ∧
      hostRead (s.cfg.regBase + off) width s = .refused (.badRegisterAccess (s.cfg.regBase + off) width)) ∧
    (width = 32 → off % 4 = 0 →
      (∃ t, hostWrite (s.cfg.regBase + off) width v s = .next t) ∧
      hostRead (s.cfg.regBase + off) width s = .next { s with rdata := readOffset s off })

/-- Each result register shows four bytes of its digest, little-endian (R35, R36, R37). `ERR_ADDR_LO` shows the low and `ERR_ADDR_HI` the
high 32 bits of the recorded address (R34, R68), and `CMD` reads 0 in every state (R30). -/
def Obligations.ResultRegistersShowTheirBytes : Prop :=
  (∀ (s : State) (j : Nat),
    (j < 8 → readOffset s (0x040 + 4 * j) = le32 (unpackBytes s.nhd 0 32) (4 * j)) ∧
    (j < 4 → readOffset s (0x060 + 4 * j) = le32 (unpackBytes s.pd 0 16) (4 * j)) ∧
    (j < 8 → readOffset s (0x080 + 4 * j) = le32 (unpackBytes s.hd 0 32) (4 * j))) ∧
  (∀ s : State,
    (readOffset s 0x038).toNat = s.errAddr.toNat % 2 ^ 32 ∧ (readOffset s 0x03C).toNat = s.errAddr.toNat / 2 ^ 32 ∧
    readOffset s 0x010 = 0)

/-- No register and not the interrupt line show the key store, the template or the accumulator (R240). -/
def Obligations.RegistersHideTheSecrets : Prop :=
  ∀ (s : State) (k : DerivedKey) (p : Template) (r : BitVec 128) (h : Fin polyP) (off : Nat),
    readOffset { s with keyram := k, tpl := p, r := r, h := h } off = readOffset s off ∧
    irq { s with keyram := k, tpl := p, r := r, h := h } = irq s

/-- `IRQ` is the OR of `DONE` and `ERR` under their enables, as the host reads the four bits; a `STATUS` write of the pending bits and
the acceptance of a command drop it (R230). -/
def Obligations.InterruptFollowsStatusAndEnables : Prop :=
  ∀ s : State,
    irq s = ((readOffset s 0x00C).getLsbD 1 && (readOffset s 0x008).getLsbD 1 ||
      (readOffset s 0x00C).getLsbD 2 && (readOffset s 0x008).getLsbD 2) ∧
    (∀ v : Word, v.getLsbD 1 = true → v.getLsbD 2 = true → irq (writeOffset 0x00C v s) = false) ∧
    (∀ w : Word, s.fsm = .idle → irq (writeOffset 0x010 w s) = false)

/-! ## Host memory -/

/-- `MemRead(a, n)` gives `n` bytes exactly when every address of the range answers with data, and then the bytes in address order; it
gives the fault `f` exactly when `f` answers with a bus error and every address of the range below `f` with data (R62, R63). That a
range with a never-answering address below a faulting one gives no fault is the model's choice (notes/assumptions/7.md). -/
def Obligations.MemReadGivesBytesOrLowestFault : Prop :=
  ∀ (s : State) (slot : Slot) (a n : Nat),
    (∀ b, memRead s slot a n = .data b ↔
      b.length = n ∧ ∀ j, (h : j < b.length) → busByte s slot (a + j) = .data b[j]) ∧
    (∀ f, memRead s slot a n = .fault f ↔
      a ≤ f ∧ f < a + n ∧ busByte s slot f = .fault f ∧ ∀ x, a ≤ x → x < f → ∃ y, busByte s slot x = .data y)

/-- A host store changes the byte it names and no other, keeps the canonical form of memory, and touches nothing else of the machine
but, while a command runs, the racing addresses (R16, R71). That the stored address then answers the engine with data, even where it
answered with a bus error before, and that a store is of one byte, are the model's choices (notes/assumptions/1.md, 14.md). -/
def Obligations.HostStoreChangesOneByte : Prop :=
  ∀ (s t : State) (a : Nat) (b : Byte), runEvent (.store a b) s = .next t →
    t.mem.get a = some b ∧ (∀ x, x ≠ a → t.mem.get x = s.mem.get x) ∧ (s.mem.wf → t.mem.wf) ∧
    (∀ x, x ∈ t.raced ↔ x ∈ s.raced ∨ (x = a ∧ s.fsm = .busy)) ∧
    t = { s with mem := t.mem, raced := t.raced }

/-- A byte that the host stores while a command runs reads as a draw: neither the old byte nor the stored one decides it, the two
operand ranges draw apart, and every other address answers as before (R71). The draw is a free value of the model
(notes/assumptions/4.md). -/
def Obligations.RacingByteIsADraw : Prop :=
  ∀ (s t : State) (a : Nat) (b : Byte), s.fsm = .busy → runEvent (.store a b) s = .next t → isSilent s a = false →
    (∀ slot, busByte t slot a = .data (Config.raceByte s.draws slot a)) ∧
    (∀ slot x, x ≠ a → busByte t slot x = busByte s slot x)

/-! ## The checks phase -/

/-- A command whose checks do not all pass completes with the error of the first that fails, in the order of R222: only `STATUS`
changes, and `ERR_ADDR` when the failing check is a range check (R222, R225). -/
def Obligations.FirstFailedCheckIsReported : Prop :=
  ∀ (i : Instr) (s : State) (c : Check), firstFailed i s = some c →
    ∃ t, exec i s = .next t ∧
      t.status = { s.status with done := true, err := true, errCode := c.code } ∧
      t.errAddr = (if c.code = .addrRange then c.addr else s.errAddr) ∧
      SameSetup s t ∧ SameOutside s t ∧ SameKeys s t ∧ SameAcc s t ∧ t.nhd = s.nhd ∧ t.pd = s.pd ∧ t.hd = s.hd ∧
      Ended s t

/-- A command whose checks all pass never completes with an error of the checks phase: it is still running and nothing has changed, or it
has completed without error, or it has completed with `ERR` and `MEM_FAULT` or `PRIM_FAULT` (R222, R223, R224). That an unanswered
command stays as it is is the model's choice (notes/assumptions/7.md). -/
def Obligations.PassingChecksGiveNoCheckError : Prop :=
  ∀ (i : Instr) (s t : State), ChecksPass i s → s.status.err = false → s.status.errCode = .none → exec i s = .next t →
    t = s ∨
    (t.fsm = .idle ∧ t.status.done = true ∧ t.status.err = false ∧ t.status.errCode = .none) ∨
    (t.fsm = .idle ∧ t.status.done = true ∧ t.status.err = true ∧
      (t.status.errCode = .memFault ∨ t.status.errCode = .primFault))

/-! ## What each command does when its checks pass -/

/-- `NOP` completes and changes nothing but `DONE` and the sequencer (R110). -/
def Obligations.NopOnlyCompletes : Prop :=
  ∀ s : State, ∃ t, exec .nop s = .next t ∧ t.status = { s.status with done := true } ∧
    SameSetup s t ∧ SameOutside s t ∧ SameKeys s t ∧ SameAcc s t ∧ SameResults s t ∧ Ended s t

/-- `KDF` stores `XOF(KDF_LABEL, ctx, seed, 4144)` as the key store, with the personalization as the context when it is bound there and
the empty string else; the key becomes valid, the template and the accumulator stop being valid (R121, R122, R129). -/
def Obligations.KdfStoresTheXofOutput : Prop :=
  ∀ (s : State) (ctx seed : Bytes), ChecksPass .kdf s → LaunchAllowed .kdf s → CtxBytes .kdf s ctx →
    SrcBytes .kdf s seed → PortAnswers s s.xofPort →
    ∃ t, exec .kdf s = .next t ∧
      t.keyram = Config.xof [0x73, 0x74, 0x68, 0x61, 0x73, 0x68, 0x20, 0x6B, 0x65, 0x79] ctx seed 4144 ∧
      (s.cfg.persBind = .mac → ctx = []) ∧ (s.cfg.persBind = .kdf → ctx.length = s.lat.ctxLen.toNat) ∧
      t.status = { s.status with done := true, keyValid := true, tplValid := false, polyValid := false } ∧
      t.tpl = s.tpl ∧ SameSetup s t ∧ SameOutside s t ∧ SameAcc s t ∧ SameResults s t ∧ Ended s t

/-- `KEYLOAD` stores the 4144 bytes it reads as the key store, split at bytes 32 and 48 and into little-endian NH key words; the key
becomes valid, the template and the accumulator stop being valid (R124, R41). -/
def Obligations.KeyloadStoresTheBytes : Prop :=
  ∀ (s : State) (k : Bytes), ChecksPass .keyload s → LaunchAllowed .keyload s → SrcBytes .keyload s k →
    ∃ t, exec .keyload s = .next t ∧ unpackBytes t.keyram 0 4144 = k ∧
      unpackBytes (kmacKey t.keyram) 0 32 = slice k 0 32 ∧ unpackBytes (polyKey t.keyram) 0 16 = slice k 32 16 ∧
      (∀ w < 1024, nhKey t.keyram w = le32 k (48 + 4 * w)) ∧
      t.status = { s.status with done := true, keyValid := true, tplValid := false, polyValid := false } ∧
      t.tpl = s.tpl ∧ SameSetup s t ∧ SameOutside s t ∧ SameAcc s t ∧ SameResults s t ∧ Ended s t

/-- `TPL_INIT` stores the template keyed with bytes 0 to 31 of the key store and the personalization as its context when it is bound
there, the empty string else (R127, R129). -/
def Obligations.TplInitStoresTheTemplate : Prop :=
  ∀ (s : State) (ctx : Bytes), ChecksPass .tplInit s → LaunchAllowed .tplInit s → CtxBytes .tplInit s ctx →
    PortAnswers s s.kmacPort →
    ∃ t, exec .tplInit s = .next t ∧ t.tpl.tk.toNat = s.keyram.toNat % 2 ^ 256 ∧ t.tpl.tc = ctx ∧
      (s.cfg.persBind = .kdf → ctx = []) ∧ (s.cfg.persBind = .mac → ctx.length = s.lat.ctxLen.toNat) ∧
      t.status = { s.status with done := true, tplValid := true } ∧
      t.keyram = s.keyram ∧ SameSetup s t ∧ SameOutside s t ∧ SameAcc s t ∧ SameResults s t ∧ Ended s t

/-- Each of the four sums of NH is the sum over the units of the two products of its pass, modulo `2^64`, with the adds modulo
`2^32` and the window of unit `u` at word `4u`; the digest holds them little-endian in order (R142, R143, R145). -/
def Obligations.NhSumsFollowTheFormula : Prop :=
  ∀ (k : DerivedKey) (msg : Bytes) (n i : Nat), msg.length = 16 * n → i < 4 →
    ((nhHash k msg).toNat / 2 ^ (64 * i)) % 2 ^ 64 =
      ((List.range n).map fun u =>
        ((le32 msg (16 * u)).toNat + (nhKey k (4 * u + 4 * i)).toNat) % 2 ^ 32 *
          (((le32 msg (16 * u + 8)).toNat + (nhKey k (4 * u + 4 * i + 2)).toNat) % 2 ^ 32) +
        ((le32 msg (16 * u + 4)).toNat + (nhKey k (4 * u + 4 * i + 1)).toNat) % 2 ^ 32 *
          (((le32 msg (16 * u + 12)).toNat + (nhKey k (4 * u + 4 * i + 3)).toNat) % 2 ^ 32)).sum % 2 ^ 64

/-- `NH n` writes the NH digest of the `16 n` bytes at `SRC_ADDR` to `NH_OUT`, whichever datapath runs, and nothing else (R141, R142). -/
def Obligations.NhWritesTheDigest : Prop :=
  ∀ (n : Nat) (s : State) (msg : Bytes), ChecksPass (.nh n) s → LaunchAllowed (.nh n) s → SrcBytes (.nh n) s msg →
    ∃ t, exec (.nh n) s = .next t ∧ t.nhd = nhHash s.keyram msg ∧ msg.length = 16 * n ∧
      t.status = { s.status with done := true } ∧ t.pd = s.pd ∧ t.hd = s.hd ∧ t.errAddr = s.errAddr ∧
      SameSetup s t ∧ SameOutside s t ∧ SameKeys s t ∧ SameAcc s t ∧ Ended s t

/-- `POLY_INIT` with a valid key clamps bytes 32 to 47 of the key store into `st.R`, clears `st.H` and makes the accumulator valid; without
one it ends with `KEY_NOT_VALID` (R160). -/
def Obligations.PolyInitClampsTheKey : Prop :=
  ∀ s : State,
    (s.status.keyValid = true →
      ∃ t, exec .polyInit s = .next t ∧
        t.r.toNat = (s.keyram.toNat / 2 ^ 256 % 2 ^ 128) &&& 0x0FFFFFFC0FFFFFFC0FFFFFFC0FFFFFFF ∧ t.h = 0 ∧
        t.status = { s.status with done := true, polyValid := true } ∧
        SameSetup s t ∧ SameOutside s t ∧ SameKeys s t ∧ SameResults s t ∧ Ended s t) ∧
    (s.status.keyValid = false →
      ∃ t, exec .polyInit s = .next t ∧
        t.status = { s.status with done := true, err := true, errCode := .keyNotValid } ∧ SameAcc s t)

/-- `POLY_UPD` folds the bytes it reads into `st.H` and changes nothing else (R163, R167). -/
def Obligations.PolyUpdFoldsTheBytes : Prop :=
  ∀ (s : State) (d : Bytes), ChecksPass .polyUpd s → LaunchAllowed .polyUpd s → SrcBytes .polyUpd s d →
    ∃ t, exec .polyUpd s = .next t ∧ t.h = fold s.r s.h d ∧ t.r = s.r ∧
      t.status = { s.status with done := true } ∧
      SameSetup s t ∧ SameOutside s t ∧ SameKeys s t ∧ SameResults s t ∧ Ended s t

/-- `POLY_UPDNH` with a valid accumulator folds the two 16-byte chunks of `st.NHD`, the lower first, and leaves `NH_OUT` alone; without
one it ends with `POLY_NOT_VALID` (R164). -/
def Obligations.PolyUpdnhFoldsTheNhDigest : Prop :=
  ∀ s : State,
    (s.status.polyValid = true →
      ∃ t, exec .polyUpdnh s = .next t ∧
        t.h.val =
          (((s.h.val + (s.nhd.toNat % 2 ^ 128 + 2 ^ 128)) * s.r.toNat % (2 ^ 130 - 5)) +
            (s.nhd.toNat / 2 ^ 128 + 2 ^ 128)) * s.r.toNat % (2 ^ 130 - 5) ∧
        t.r = s.r ∧ t.status = { s.status with done := true } ∧
        SameSetup s t ∧ SameOutside s t ∧ SameKeys s t ∧ SameResults s t ∧ Ended s t) ∧
    (s.status.polyValid = false →
      ∃ t, exec .polyUpdnh s = .next t ∧
        t.status = { s.status with done := true, err := true, errCode := .polyNotValid } ∧ SameAcc s t)

/-- `POLY_FIN` with a valid accumulator writes the low 128 bits of the residue to `POLY_OUT` and leaves the accumulator as it is; without
one it ends with `POLY_NOT_VALID` (R165, R166). -/
def Obligations.PolyFinWritesTheLowBits : Prop :=
  ∀ s : State,
    (s.status.polyValid = true →
      ∃ t, exec .polyFin s = .next t ∧ t.pd.toNat = s.h.val % 2 ^ 128 ∧ SameAcc s t ∧
        t.status = { s.status with done := true } ∧ t.nhd = s.nhd ∧ t.hd = s.hd ∧ t.errAddr = s.errAddr ∧
        SameSetup s t ∧ SameOutside s t ∧ SameKeys s t ∧ Ended s t) ∧
    (s.status.polyValid = false →
      ∃ t, exec .polyFin s = .next t ∧
        t.status = { s.status with done := true, err := true, errCode := .polyNotValid } ∧ t.pd = s.pd ∧ SameAcc s t)

/-- `COMBINE` writes the closed form of the poly digest of the message to `POLY_OUT` and leaves the accumulator at its residue, for every
legal batch size and either datapath; `NH_OUT` does not change (R181, R187, R191). -/
def Obligations.CombineWritesThePolyDigest : Prop :=
  ∀ (s : State) (msg : Bytes), s.cfg.wf → ChecksPass .combine s → LaunchAllowed .combine s →
    SrcBytes .combine s msg →
    ∃ t, exec .combine s = .next t ∧ t.pd = polyDigest s.keyram msg ∧ t.h = polyResidue s.keyram msg ∧
      t.r = clamp (polyKey s.keyram) ∧ t.status = { s.status with done := true, polyValid := true } ∧
      t.nhd = s.nhd ∧ t.hd = s.hd ∧ t.errAddr = s.errAddr ∧
      SameSetup s t ∧ SameOutside s t ∧ SameKeys s t ∧ Ended s t

/-- `HASH` writes the poly digest of the message to `POLY_OUT` and `KMAC(tk, tc, LE64(L) ‖ pd, 32)` to `HASH_OUT`, where `L` is the length of
the message; the template does not change (R201, R202, R203). -/
def Obligations.HashWritesTheKmacOfLengthAndDigest : Prop :=
  ∀ (s : State) (msg : Bytes), s.cfg.wf → ChecksPass .hash s → LaunchAllowed .hash s → SrcBytes .hash s msg →
    PortAnswers s s.kmacPort →
    ∃ t, exec .hash s = .next t ∧ t.pd = polyDigest s.keyram msg ∧
      t.hd = Config.kmac (unpackBytes s.tpl.tk 0 32) s.tpl.tc
        (leBytes 8 msg.length ++ unpackBytes (polyDigest s.keyram msg) 0 16) 32 ∧
      t.h = polyResidue s.keyram msg ∧ t.r = clamp (polyKey s.keyram) ∧
      t.status = { s.status with done := true, polyValid := true } ∧ t.nhd = s.nhd ∧ t.errAddr = s.errAddr ∧
      SameSetup s t ∧ SameOutside s t ∧ SameKeys s t ∧ Ended s t

/-! ## Errors of the execution phase -/

/-- A bus fault or an XOF error of `KDF`, and a bus fault of `KEYLOAD`, ends the command with its code, the context range first, and leaves
no key, template or accumulator valid; no result register, template or accumulator register is written (R130, R225). What the key
store holds is not stated. -/
def Obligations.KeyCommandFaultsInvalidateEverything : Prop :=
  ∀ (i : Instr) (s : State), i = .kdf ∨ i = .keyload → ChecksPass i s → LaunchAllowed i s →
    (∀ f, (CtxFault i s f ∨ ∃ ctx, CtxBytes i s ctx ∧ SrcFault i s f) →
      ∃ t, exec i s = .next t ∧ t.errAddr = BitVec.ofNat 64 f ∧
        t.status = { s.status with done := true, err := true, errCode := .memFault, keyValid := false,
                                   tplValid := false, polyValid := false } ∧
        t.tpl = s.tpl ∧ t.nhd = s.nhd ∧ t.pd = s.pd ∧ t.hd = s.hd ∧ SameAcc s t ∧
        SameSetup s t ∧ SameOutside s t ∧ Ended s t) ∧
    (∀ ctx seed, i = .kdf → CtxBytes i s ctx → SrcBytes i s seed → PortErrs s s.xofPort →
      ∃ t, exec i s = .next t ∧
        t.status = { s.status with done := true, err := true, errCode := .primFault, keyValid := false,
                                   tplValid := false, polyValid := false } ∧
        t.tpl = s.tpl ∧ SameResults s t ∧ SameAcc s t ∧ SameSetup s t ∧ SameOutside s t ∧ Ended s t)

/-- A bus fault of `TPL_INIT` leaves the template and its validity alone; a KMAC error makes the template not valid; neither touches the
key store or the accumulator (R128). -/
def Obligations.TplInitFaultsKeepOrDropTheTemplate : Prop :=
  ∀ s : State, ChecksPass .tplInit s → LaunchAllowed .tplInit s →
    (∀ f, CtxFault .tplInit s f →
      ∃ t, exec .tplInit s = .next t ∧ t.errAddr = BitVec.ofNat 64 f ∧
        t.status = { s.status with done := true, err := true, errCode := .memFault } ∧
        t.nhd = s.nhd ∧ t.pd = s.pd ∧ t.hd = s.hd ∧ SameKeys s t ∧ SameAcc s t ∧
        SameSetup s t ∧ SameOutside s t ∧ Ended s t) ∧
    (∀ ctx, CtxBytes .tplInit s ctx → PortErrs s s.kmacPort →
      ∃ t, exec .tplInit s = .next t ∧
        t.status = { s.status with done := true, err := true, errCode := .primFault, tplValid := false } ∧
        SameResults s t ∧ t.keyram = s.keyram ∧ SameAcc s t ∧ SameSetup s t ∧ SameOutside s t ∧ Ended s t)

/-- A bus fault of `NH` changes nothing but `STATUS` and `ERR_ADDR`; one of `POLY_UPD` also makes the accumulator not valid (R141, R172,
R225). What `st.R` and `st.H` hold after one of `POLY_UPD` is not stated. -/
def Obligations.NhAndPolyUpdFaults : Prop :=
  ∀ (i : Instr) (s : State) (f : Nat), ChecksPass i s → LaunchAllowed i s → SrcFault i s f →
    (∀ n, i = .nh n →
      ∃ t, exec i s = .next t ∧ t.errAddr = BitVec.ofNat 64 f ∧
        t.status = { s.status with done := true, err := true, errCode := .memFault } ∧
        t.nhd = s.nhd ∧ t.pd = s.pd ∧ t.hd = s.hd ∧ SameKeys s t ∧ SameAcc s t ∧
        SameSetup s t ∧ SameOutside s t ∧ Ended s t) ∧
    (i = .polyUpd →
      ∃ t, exec i s = .next t ∧ t.errAddr = BitVec.ofNat 64 f ∧
        t.status = { s.status with done := true, err := true, errCode := .memFault, polyValid := false } ∧
        t.nhd = s.nhd ∧ t.pd = s.pd ∧ t.hd = s.hd ∧ SameKeys s t ∧
        SameSetup s t ∧ SameOutside s t ∧ Ended s t)

/-- A bus fault of `COMBINE` or `HASH`, at the lowest faulting address of the message, makes the accumulator not valid; a KMAC error of
`HASH` also makes the template not valid; no result register is written (R189, R204). That the template keeps its pair after a KMAC
error is the model's choice (notes/assumptions/6.md). What `st.R` and `st.H` hold then is not stated. -/
def Obligations.CombineAndHashFaultsDropTheAccumulator : Prop :=
  ∀ (i : Instr) (s : State), i = .combine ∨ i = .hash → s.cfg.wf → ChecksPass i s → LaunchAllowed i s →
    (∀ f, SrcFault i s f →
      ∃ t, exec i s = .next t ∧ t.errAddr = BitVec.ofNat 64 f ∧
        t.status = { s.status with done := true, err := true, errCode := .memFault, polyValid := false } ∧
        t.nhd = s.nhd ∧ t.pd = s.pd ∧ t.hd = s.hd ∧ SameKeys s t ∧ SameSetup s t ∧ SameOutside s t ∧ Ended s t) ∧
    (∀ msg, i = .hash → SrcBytes i s msg → PortErrs s s.kmacPort →
      ∃ t, exec i s = .next t ∧
        t.status = { s.status with done := true, err := true, errCode := .primFault, tplValid := false,
                                   polyValid := false } ∧
        SameResults s t ∧ SameKeys s t ∧ SameSetup s t ∧ SameOutside s t ∧ Ended s t)

/-- A command whose bus read is never answered, or whose port never answers, keeps running and changes nothing: the engine's step leaves
the state as it is (R63, R75). That such a step exists and changes nothing is the model's choice (notes/assumptions/7.md). -/
def Obligations.UnansweredCommandKeepsRunning : Prop :=
  ∀ (i : Instr) (s : State), ChecksPass i s → LaunchAllowed i s →
    (memRead s .ctx (latCtx s) (ctxReadLen s i) = .silent → exec i s = .next s) ∧
    (∀ ctx, CtxBytes i s ctx → memRead s .src (latSrc s) (srcReadLen s i) = .silent → exec i s = .next s) ∧
    (∀ ctx seed, i = .kdf → CtxBytes i s ctx → SrcBytes i s seed → s.xofPort = .silent → exec i s = .next s) ∧
    (∀ ctx msg, i = .tplInit ∨ i = .hash → CtxBytes i s ctx → SrcBytes i s msg → s.kmacPort = .silent →
      exec i s = .next s)

/-- The model refuses a command whose checks pass and whose operand ranges hold an address with read side effects (R271). That the refusal
comes in the engine's step, after the checks and before the first read, is the model's deduction (notes/assumptions/13.md). -/
def Obligations.ReadSideEffectsAreRefused : Prop :=
  ∀ (i : Instr) (s : State), ChecksPass i s → ¬ LaunchAllowed i s →
    ∃ a, exec i s = .refused (.readSideEffects a)

/-! ## The arithmetic -/

/-- The two datapaths give the same digest for every key and message, and no completed command depends on which one runs (R147). That
the vector datapath runs in the reference grouping of R147 is the model's choice (notes/assumptions/17.md). -/
def Obligations.VectorDatapathEqualsScalar : Prop :=
  (∀ (k : DerivedKey) (msg : Bytes), nhDigest (nhEval true k msg) = nhHash k msg ∧ nhEval false k msg = nhEval true k msg) ∧
  (∀ (i : Instr) (s t : State) (v : Bool), s.fsm = .busy → exec i s = .next t → t.fsm = .idle →
    exec i { s with work := { s.work with vecSel := v } } = .next t)

/-- An NH evaluation of `n` units depends only on the key words `K[0 .. 4n+11]` (R148). -/
def Obligations.NhReadsOnlyItsKeyWords : Prop :=
  ∀ (k k' : DerivedKey) (msg : Bytes), (∀ w < 4 * (msg.length / 16) + 12, nhKey k w = nhKey k' w) →
    nhHash k msg = nhHash k' msg

/-- `fold` adds each chunk with its high bit, multiplies and reduces, in order; folding is the same however the data is split at 16-byte
boundaries (R167). -/
def Obligations.FoldIsSequential : Prop :=
  ∀ (r : BitVec 128) (h : Fin polyP),
    fold r h [] = h ∧
    (∀ c d : Bytes, c.length = 16 →
      fold r h (c ++ d) =
        fold r ⟨((h.val + (leNat c + 2 ^ 128)) * r.toNat) % (2 ^ 130 - 5), Nat.mod_lt _ (by decide)⟩ d) ∧
    (∀ a b : Bytes, a.length % 16 = 0 → fold r (fold r h a) b = fold r h (a ++ b))

/-- The special cases of R168: a zero multiplier gives 0, multiplier one is addition modulo p, a residue at or above `2^128` is
truncated, a sum of p is 0 and one of `2^130 - 2` is 3. -/
def Obligations.FoldSpecialCases : Prop :=
  (∀ (h : Fin polyP) (d : Bytes), 16 ≤ d.length → fold 0 h d = 0 ∧ finalize (fold 0 h d) = 0) ∧
  (∀ (h : Fin polyP) (c : Bytes), c.length = 16 → (fold 1 h c).val = (h.val + leNat c + 2 ^ 128) % (2 ^ 130 - 5)) ∧
  (∀ h : Fin polyP, (finalize h).toNat = h.val % 2 ^ 128) ∧
  (∀ h : Fin polyP, h.val = 2 ^ 129 → finalize h = 0) ∧
  (∀ (h : Fin polyP) (c : Bytes), c.length = 16 → h.val + leNat c + 2 ^ 128 = 2 ^ 130 - 5 → fold 1 h c = 0) ∧
  (∀ (h : Fin polyP) (c : Bytes), c.length = 16 → h.val + leNat c + 2 ^ 128 = 2 ^ 130 - 2 → (fold 1 h c).val = 3)

/-- The limb masks of R161 split the clamped key: the three limbs are worth it, and it is below `2^124`. -/
def Obligations.ClampLimbsAreTheClampedKey : Prop :=
  ∀ k : Str16, (limbKey k).value = (clamp k).toNat ∧ (clamp k).toNat < 2 ^ 124

/-- The limb form of R169 and the residue form give the same 16 bytes for every key and every sequence of chunks; on the way each limb
after the add of a chunk is below `2^64`, and each column sum with the carry into it is below `2^128` (R169, R170). -/
def Obligations.LimbFormAgreesWithResidueForm : Prop :=
  ∀ (k : Str16) (cs : List Str16),
    let h := cs.foldl (limbUpdate (limbKey k)) ⟨0, 0, 0⟩
    limbFinalize h = finalize (fold (clamp k) 0 (cs.flatMap fun c => unpackBytes c 0 16)) ∧
    ∀ c : Str16,
      (limbAdd h c).l0 < 2 ^ 64 ∧ (limbAdd h c).l1 < 2 ^ 64 ∧ (limbAdd h c).l2 < 2 ^ 64 ∧
      let d := limbProduct (limbAdd h c) (limbKey k)
      d.l0 < 2 ^ 128 ∧ d.l1 + d.l0 >>> 44 < 2 ^ 128 ∧ d.l2 + (d.l1 + d.l0 >>> 44) >>> 44 < 2 ^ 128

/-- Every legal batch size gives the same residue, and the same fault or silence, for every sequence of reads (R186). -/
def Obligations.BatchSizeDoesNotMatter : Prop :=
  ∀ (rd : Nat → Nat → Got Bytes) (b b' : Nat) (r : BitVec 128) (k : DerivedKey) (a len : Nat) (v : Bool),
    1 ≤ b → b ≤ 16 → 1 ≤ b' → b' ≤ 16 →
    (combineRun rd b r k a len ⟨0, { Work.none with vecSel := v }⟩).bind (fun c => .data c.h) =
      (combineRun rd b' r k a len ⟨0, { Work.none with vecSel := v }⟩).bind (fun c => .data c.h)

/-- Zero bytes that fit in the padding of the final partial block do not change the poly digest, and the length that `HASH` absorbs
tells the two messages apart (R190). -/
def Obligations.PaddingHidesTrailingZeros : Prop :=
  ∀ (k : DerivedKey) (m : Bytes) (j : Nat), 0 < m.length % 1024 → m.length % 1024 % 16 ≠ 0 → 1 ≤ j →
    j ≤ 15 - (m.length % 1024 - 1) % 16 →
    polyDigest k (m ++ List.replicate j 0) = polyDigest k m ∧
    (m.length + j < 2 ^ 64 → leBytes 8 (m.length + j) ≠ leBytes 8 m.length)

/-! ## Rules of the whole machine -/

/-- No command changes host memory, the registers the host sets up, the instance, the ports or the inputs (R61, R205). -/
def Obligations.EngineChangesNothingOutside : Prop :=
  ∀ (i : Instr) (s t : State), exec i s = .next t → SameSetup s t ∧ SameOutside s t

/-- Only a `KDF` or `KEYLOAD` command, in the engine's step, and a reset change the key store (R41). -/
def Obligations.OnlyKeyCommandsChangeTheKeyStore : Prop :=
  ∀ (i : Instr) (e : Event) (s t : State),
    (exec i s = .next t → t.keyram ≠ s.keyram → i = .kdf ∨ i = .keyload) ∧
    (runEvent e s = .next t → t.keyram ≠ s.keyram →
      e = .hwReset ∨
      (∃ addr width v, (e = .write addr width v ∨ e = .engineWrite addr width v) ∧
        windowOffset s.cfg addr width = some 0x008 ∧ v.getLsbD 31 = true) ∨
      (s.fsm = .busy ∧ (decode (commandWord s.lat) = .ok .kdf ∨ decode (commandWord s.lat) = .ok .keyload) ∧
        (e = .engine ∨ ∃ addr width v, e = .engineWrite addr width v)))

/-- A result register or `ERR_ADDR` changes only in a step that completes a command, or at a reset (R38). -/
def Obligations.ResultsChangeOnlyAtCompletionOrReset : Prop :=
  ∀ (e : Event) (s t : State), runEvent e s = .next t → ¬ SameResults s t →
    e = .hwReset ∨
    (∃ addr width v, (e = .write addr width v ∨ e = .engineWrite addr width v) ∧
      windowOffset s.cfg addr width = some 0x008 ∧ v.getLsbD 31 = true) ∨
    (s.fsm = .busy ∧ (∃ u, engineStep s = .next u ∧ u.fsm = .idle ∧ u.status.done = true) ∧
      (e = .engine ∨ ∃ addr width v, e = .engineWrite addr width v))

/-- What a command does depends on host memory only through the bytes of the ranges it reads: with the same bytes there, in another memory,
it ends in the same way (R183, R205). -/
def Obligations.CommandsReadOnlyTheirRanges : Prop :=
  ∀ (i : Instr) (s t : State) (m : Memory),
    (∀ x, latCtx s ≤ x → x < latCtx s + ctxReadLen s i → m.get x = s.mem.get x) →
    (∀ x, latSrc s ≤ x → x < latSrc s + srcReadLen s i → m.get x = s.mem.get x) →
    exec i s = .next t → exec i { s with mem := m } = .next { t with mem := m }

/-- On a platform without marked addresses and with ports that answer, the engine's next step completes the running command, whatever
its word is: the block is idle and `DONE` is set. R106 says finitely many engine steps; that they are one is the model's choice, which
R105 permits (notes/assumptions/5.md). Marks outside the ranges read and a silent port that a command does not use are left to the
statements about each command. -/
def Obligations.EveryRunningCommandCompletes : Prop :=
  ∀ s : State, s.fsm = .busy → s.cfg.marks = [] → s.xofPort ≠ .silent → s.kmacPort ≠ .silent →
    ∃ t, runEvent .engine s = .next t ∧ t.fsm = .idle ∧ t.status.done = true

/-- The invariant: a legal instance; a valid template and a valid accumulator belong to the valid key; nothing of a command is left while
idle; a running command has its initial working state and cleared completion bits; the vector datapath is never used where it is not
built; `ERR` never stands without a code; memory is in canonical form. Every step keeps it. -/
def Obligations.StepKeepsTheInvariant : Prop :=
  ∀ s t : State, Inv s → step s = .next t → Inv t

/-- The state after power-on meets the invariant. -/
def Obligations.ResetMeetsTheInvariant : Prop := Inv State.reset
end

