-- ==== Sys2Proof/Laws/Bytes.lean ====
section
/-! SUPPORT. The small lemmas of the byte strings and their little-endian conversions. -/

namespace Sys2Proof.Machine

open Sys2Proof

@[simp] theorem leNat_nil : leNat [] = 0 := rfl

@[simp] theorem leNat_cons (b : Byte) (bs : Bytes) : leNat (b :: bs) = b.toNat + 256 * leNat bs := rfl

/-- A string of `n` bytes is worth less than `2^(8n)` (R9). -/
theorem leNat_lt (b : Bytes) : leNat b < 2 ^ (8 * b.length) := by
  induction b with
  | nil => simp
  | cons x bs ih =>
    have hx := x.isLt
    have : 2 ^ (8 * (bs.length + 1)) = 256 * 2 ^ (8 * bs.length) := by rw [Nat.mul_succ, Nat.pow_add]; omega
    simp only [leNat_cons, List.length_cons, this]
    omega

theorem leNat_append (a b : Bytes) : leNat (a ++ b) = leNat a + 2 ^ (8 * a.length) * leNat b := by
  induction a with
  | nil => simp
  | cons x xs ih =>
    have : 2 ^ (8 * (xs.length + 1)) = 256 * 2 ^ (8 * xs.length) := by rw [Nat.mul_succ, Nat.pow_add]; omega
    rw [List.cons_append, leNat_cons, leNat_cons, ih, List.length_cons, this]
    ring

@[simp] theorem leBytes_length (n v : Nat) : (leBytes n v).length = n := by
  induction n generalizing v with
  | zero => rfl
  | succ n ih => simp [leBytes, ih]

/-- `LE_n` then `le` gives the value modulo `2^(8n)` (R9). -/
theorem leNat_leBytes (n v : Nat) : leNat (leBytes n v) = v % 2 ^ (8 * n) := by
  induction n generalizing v with
  | zero => simp [leBytes, Nat.mod_one]
  | succ n ih =>
    have : 2 ^ (8 * (n + 1)) = 256 * 2 ^ (8 * n) := by rw [Nat.mul_succ, Nat.pow_add]; omega
    simp only [leBytes, leNat_cons, BitVec.toNat_ofNat, ih, this, Nat.mod_mul]

/-- `le` then `LE_n` gives the string back (R9). -/
theorem leBytes_leNat (b : Bytes) : leBytes b.length (leNat b) = b := by
  induction b with
  | nil => rfl
  | cons x bs ih =>
    have hx := x.isLt
    have hd : (x.toNat + 256 * leNat bs) / 256 = leNat bs := by omega
    have hb : BitVec.ofNat 8 (x.toNat + 256 * leNat bs) = x := by
      apply BitVec.eq_of_toNat_eq
      simp only [BitVec.toNat_ofNat]
      omega
    simp [leBytes, hd, hb, ih]

@[simp] theorem unpackBytes_length {w : Nat} (v : BitVec w) (o n : Nat) : (unpackBytes v o n).length = n := by
  simp [unpackBytes]

/-- The bytes of a packed string of `w / 8` bytes are the string. -/
theorem unpackBytes_packBytes (w : Nat) (b : Bytes) (hw : 8 * b.length = w) :
    unpackBytes (packBytes w b) 0 b.length = b := by
  have hlt : leNat b < 2 ^ w := hw ▸ leNat_lt b
  simp [unpackBytes, packBytes, Nat.mod_eq_of_lt hlt, leBytes_leNat]

@[simp] theorem slice_nil (o n : Nat) : slice [] o n = [] := by simp [slice]

theorem slice_length (b : Bytes) (o n : Nat) (h : o + n ≤ b.length) : (slice b o n).length = n := by
  simp [slice]; omega

/-- A slice at the start of a concatenation reads the first string only, when it fits there. -/
theorem slice_append_left (a b : Bytes) (o n : Nat) (h : o + n ≤ a.length) : slice (a ++ b) o n = slice a o n := by
  simp [slice, List.drop_append_of_le_length (by omega : o ≤ a.length),
    List.take_append_of_le_length (by simp; omega : n ≤ (a.drop o).length)]

theorem ceil16_ge (x : Nat) : x ≤ ceil16 x := by unfold ceil16; omega

theorem ceil16_mod (x : Nat) : ceil16 x % 16 = 0 := by unfold ceil16; omega

end Sys2Proof.Machine
end

