-- ==== Sys2Proof/Laws/Decode.lean ====
section
/-! SUPPORT. The fields of the command word as numbers, and what a decoded opcode tells about the fields. -/

namespace Sys2Proof.Machine

open Sys2Proof

theorem opField_toNat (w : Word) : (opField w).toNat = w.toNat % 256 := by simp [opField, BitVec.extractLsb'_toNat]

theorem argField_toNat (w : Word) : (argField w).toNat = w.toNat / 256 % 256 := by
  simp [argField, BitVec.extractLsb'_toNat, Nat.shiftRight_eq_div_pow]

theorem rsvField_toNat (w : Word) : (rsvField w).toNat = w.toNat / 65536 := by
  have := w.isLt
  simp [rsvField, BitVec.extractLsb'_toNat, Nat.shiftRight_eq_div_pow]
  omega

/-- The word of a latched command is the word that was written (R80, R102). -/
theorem commandWord_latch (w : Word) (s : State) : commandWord (latch w s) = w := by
  simp only [commandWord, latch, rsvField, argField, opField]
  ext i hi
  simp only [BitVec.getElem_append, BitVec.getElem_extractLsb']
  split
  · rw [← BitVec.getLsbD_eq_getElem]; simp
  · split <;> (rw [← BitVec.getLsbD_eq_getElem]; congr 1; omega)

/-- A command without an operand decodes only with `ARG = 0` (R81). -/
theorem plainCommand_ok {arg : Byte} {i j : Instr} : plainCommand arg i = .ok j ↔ arg = 0 ∧ i = j := by
  unfold plainCommand
  by_cases h : arg = 0#8
  · simp [h]
  · simp [h]

end Sys2Proof.Machine
end

