-- ==== Sys2Proof/Laws/Guards.lean ====
section
/-! SUPPORT. Reads, requests and guards: what each can answer, once. The meanings of the commands are chains of guards, so a proof
about a command rewrites with these instead of unfolding. -/

namespace Sys2Proof.Machine

open Sys2Proof

variable {s t : State}

/-! ## Reads -/

@[simp] theorem Got.bind_data {α β : Type} (x : α) (f : α → Got β) : (Got.data x).bind f = f x := rfl

@[simp] theorem Got.bind_fault {α β : Type} (a : Nat) (f : α → Got β) : (Got.fault a : Got α).bind f = .fault a := rfl

@[simp] theorem Got.bind_silent {α β : Type} (f : α → Got β) : (Got.silent : Got α).bind f = .silent := rfl

theorem Got.bind_eq_data {α β : Type} {g : Got α} {f : α → Got β} {y : β} :
    g.bind f = .data y ↔ ∃ x, g = .data x ∧ f x = .data y := by
  cases g <;> simp

theorem Got.bind_assoc {α β γ : Type} (g : Got α) (f : α → Got β) (k : β → Got γ) :
    (g.bind f).bind k = g.bind fun x => (f x).bind k := by
  cases g <;> rfl

@[simp] theorem readBytes_zero (bus : Nat → Got Byte) (a : Nat) : readBytes bus a 0 = .data [] := rfl

theorem readBytes_succ (bus : Nat → Got Byte) (a n : Nat) :
    readBytes bus a (n + 1) = (bus a).bind fun b => (readBytes bus (a + 1) n).bind fun bs => .data (b :: bs) := rfl

/-- A read returns as many bytes as it asks for (R62). -/
theorem readBytes_length {bus : Nat → Got Byte} {a n : Nat} {b : Bytes} (h : readBytes bus a n = .data b) :
    b.length = n := by
  induction n generalizing a b with
  | zero => cases h; rfl
  | succ n ih =>
    rw [readBytes_succ] at h
    obtain ⟨x, -, h⟩ := Got.bind_eq_data.mp h
    obtain ⟨bs, hbs, h⟩ := Got.bind_eq_data.mp h
    cases h
    simp [ih hbs]

theorem memRead_length {slot : Slot} {a n : Nat} {b : Bytes} (h : memRead s slot a n = .data b) : b.length = n :=
  readBytes_length h

/-- A read of a range is the reads of its two parts, one after the other (R62). -/
theorem readBytes_add (bus : Nat → Got Byte) (a m n : Nat) :
    readBytes bus a (m + n) =
      (readBytes bus a m).bind fun x => (readBytes bus (a + m) n).bind fun y => .data (x ++ y) := by
  induction m generalizing a with
  | zero =>
    simp only [Nat.zero_add, readBytes_zero, Got.bind_data, Nat.add_zero, List.nil_append]
    cases readBytes bus a n <;> rfl
  | succ m ih =>
    rw [Nat.succ_add, readBytes_succ, readBytes_succ, ih]
    simp only [Got.bind_assoc, Got.bind_data, List.cons_append]
    rw [Nat.add_assoc, Nat.add_comm 1 m]

/-- Reads agree when the bus does on the range. -/
theorem readBytes_congr {bus bus' : Nat → Got Byte} {a n : Nat} (h : ∀ x, a ≤ x → x < a + n → bus x = bus' x) :
    readBytes bus a n = readBytes bus' a n := by
  induction n generalizing a with
  | zero => rfl
  | succ n ih =>
    rw [readBytes_succ, readBytes_succ, h a (le_refl a) (by omega),
      ih fun x h1 h2 => h x (by omega) (by omega)]

/-! ## Port requests -/

/-- All that a port can answer (R74, R75). -/
theorem portAnswer_cases {α : Type} (s : State) (m : PortMode) (x : α) :
    portAnswer s m x = .data x ∨ (m = .errs ∧ s.cfg.primMayFault = true ∧ portAnswer s m x = .error) ∨
      (m = .silent ∧ portAnswer s m x = .silent) := by
  cases m <;> simp [portAnswer]

/-! ## Guards -/

variable {k : Host.Outcome State Fault Refusal}

@[simp] theorem check_pass (code : ErrCode) (info : DWord) (s : State) (k : Host.Outcome State Fault Refusal) :
    check true code info s k = k := rfl

@[simp] theorem check_fail (code : ErrCode) (info : DWord) (s : State) (k : Host.Outcome State Fault Refusal) :
    check false code info s k = .next (raiseError code info s) := rfl

/-- All that a check can do. -/
theorem check_next {ok : Bool} {code : ErrCode} {info : DWord} :
    check ok code info s k = .next t ↔ (ok = true ∧ k = .next t) ∨ (ok = false ∧ t = raiseError code info s) := by
  cases ok <;> simp [eq_comm]

/-- All that a range check can do. -/
theorem checkRange_next {a : DWord} {n : Nat} :
    checkRange a n s k = .next t ↔
      (rangeOk s a.toNat n = true ∧ k = .next t) ∨ (rangeOk s a.toNat n = false ∧ t = raiseError .addrRange a s) :=
  check_next

/-- All that a launch can do. -/
theorem launch_next {a n : Nat} : launch a n s k = .next t ↔ hasReadEffects s a n = false ∧ k = .next t := by
  unfold launch
  cases hasReadEffects s a n <;> simp

theorem launch_pass {a n : Nat} (h : hasReadEffects s a n = false) : launch a n s k = k := by simp [launch, h]

/-- All that a read can do to the command. -/
theorem onRead_next {α : Type} {g : Got α} {spoil : State → State} {k : α → Host.Outcome State Fault Refusal} :
    onRead g spoil s k = .next t ↔
      (∃ x, g = .data x ∧ k x = .next t) ∨
      (∃ f, g = .fault f ∧ t = raiseError .memFault (BitVec.ofNat 64 f) (spoil s)) ∨ (g = .silent ∧ t = s) := by
  cases g <;> simp [onRead, eq_comm]

/-- All that a port request can do to the command. -/
theorem onPort_next {α : Type} {g : PortAnswer α} {spoil : State → State}
    {k : α → Host.Outcome State Fault Refusal} :
    onPort g spoil s k = .next t ↔
      (∃ x, g = .data x ∧ k x = .next t) ∨ (g = .error ∧ t = raiseError .primFault 0 (spoil s)) ∨
      (g = .silent ∧ t = s) := by
  cases g <;> simp [onPort, eq_comm]

end Sys2Proof.Machine
end

