-- ==== Sys2Proof/Laws/Exec.lean ====
section
/-! SUPPORT. All that a command can do, once: its checks as the table of R222, what runs behind them, and the shapes of the states it can
answer. -/

namespace Sys2Proof.Machine

open Sys2Proof

variable {s t : State}

/-! ## The checks and what stands behind them -/

/-- A list of checks in front of an outcome, each as `check`. -/
def guarded (s : State) (cs : List Check) (k : Host.Outcome State Fault Refusal) : Host.Outcome State Fault Refusal :=
  cs.foldr (fun c k => check (!c.applies || c.holds) c.code c.addr s k) k

/-- What a command does once its checks have passed and no range it reads has read side effects. -/
def execBody (i : Instr) (s : State) : Host.Outcome State Fault Refusal :=
  match i with
  | .nop => .next (complete s)
  | .kdf =>
    onRead (memRead s .ctx (latCtx s) (ctxReadLen s .kdf)) spoilKey s fun ctx =>
    onRead (memRead s .src (latSrc s) (latLen s)) spoilKey s fun seed =>
    onPort (xofRequest s ctx seed) spoilKey s fun out => .next (complete (storeKey out s))
  | .keyload =>
    onRead (memRead s .src (latSrc s) (latLen s)) spoilKey s fun k => .next (complete (storeKey (packBytes 33152 k) s))
  | .tplInit =>
    onRead (memRead s .ctx (latCtx s) (ctxReadLen s .tplInit)) id s fun ctx =>
    onPort (kmacInitRequest s (kmacKey s.keyram) ctx) dropTemplate s fun t => .next (complete (storeTemplate t s))
  | .nh n =>
    onRead (memRead s .src (latSrc s) (16 * n)) id s fun msg =>
    .next (complete (storeNh (nhEval s.work.vecSel s.keyram msg) s))
  | .polyInit => .next (complete (storeFresh s))
  | .polyUpd =>
    onRead (memRead s .src (latSrc s) (latLen s)) spoilAcc s fun d => .next (complete (foldInto d s))
  | .polyUpdnh => .next (complete { s with h := fold s.r s.h (unpackBytes s.nhd 0 32) })
  | .polyFin => .next (complete { s with pd := finalize s.h })
  | .combine => onRead (combine s) spoilAcc s fun c => .next (complete (storeComb c s))
  | .hash =>
    onRead (combine s) spoilAcc s fun c =>
    onPort (kmacFinalRequest s (latLen s) (finalize c.h)) spoilHash s fun hd => .next (complete (storeHash hd (storeComb c s)))

/-- No read of no bytes has a side effect. -/
@[simp] theorem hasReadEffects_zero (s : State) (a : Nat) : hasReadEffects s a 0 = false := by
  simp [hasReadEffects, markMeets]

@[simp] theorem launch_zero (s : State) (a : Nat) (k : Host.Outcome State Fault Refusal) : launch a 0 s k = k := by
  simp [launch]

/-- Every command is its checks in the order of R222, then the refusal of read side effects, then its body. -/
theorem exec_eq (i : Instr) (s : State) :
    exec i s =
      guarded s (checksOf i s)
        (launch (latCtx s) (ctxReadLen s i) s (launch (latSrc s) (srcReadLen s i) s (execBody i s))) := by
  cases i
  case keyload =>
    simp only [guarded, checksOf, List.foldr, exec, execKeyload, execBody, needsKey, needsPoly, lengthOk, lengthError, readsCtx,
      readsSrc, ctxReadLen, srcReadLen]
    by_cases h : latLen s = keyBytes <;> simp [h, checkRange, keyBytes]
  all_goals
    simp [guarded, checksOf, exec, execNop, execKdf, execTplInit, execNh, execPolyInit, execPolyUpd, execPolyUpdnh, execPolyFin,
      execCombine, execHash, execBody, needsKey, needsPoly, lengthOk, lengthError, readsCtx, readsSrc, ctxReadLen, srcReadLen, checkRange,
      checkContext, boundLen, readContext, minSeedBytes, nhMaxUnits]
  case kdf => by_cases hp : s.cfg.persBind = .kdf <;> simp [hp]
  case tplInit => by_cases hp : s.cfg.persBind = .mac <;> simp [hp]

theorem guarded_nil (s : State) (k : Host.Outcome State Fault Refusal) : guarded s [] k = k := rfl

/-- Guards answer with the first check that fails, and go on when none does. -/
theorem guarded_eq (s : State) (cs : List Check) (k : Host.Outcome State Fault Refusal) :
    guarded s cs k =
      match cs.find? fun c => c.applies && !c.holds with
      | some c => .next (raiseError c.code c.addr s)
      | none => k := by
  induction cs with
  | nil => rfl
  | cons c cs ih =>
    have h : guarded s (c :: cs) k = check (!c.applies || c.holds) c.code c.addr s (guarded s cs k) := rfl
    rw [h, ih, List.find?_cons]
    cases c.applies <;> cases c.holds <;> rfl

/-- Every check passes exactly when each one that applies holds. -/
theorem checksPass_iff {i : Instr} :
    ChecksPass i s ↔
      (needsKey i = true → s.status.keyValid = true) ∧ (i = .hash → s.status.tplValid = true) ∧
      (needsPoly i = true → s.status.polyValid = true) ∧ lengthOk s i = true ∧
      (readsCtx s i = true → rangeOk s s.lat.ctxAddr.toNat (ctxReadLen s i) = true) ∧
      (readsSrc i = true → rangeOk s s.lat.srcAddr.toNat (srcReadLen s i) = true) := by
  simp [ChecksPass, firstFailed, checksOf]

/-- A command whose checks pass, on ranges without read side effects, is its body. -/
theorem exec_pass {i : Instr} (hc : ChecksPass i s) (hl : LaunchAllowed i s) : exec i s = execBody i s := by
  have hc' : (checksOf i s).find? (fun c => c.applies && !c.holds) = none := hc
  rw [exec_eq, guarded_eq, hc']
  simp [launch, hl.1, hl.2]

/-- All that a command can do before its body: report the first check that fails, or refuse. -/
theorem exec_next {i : Instr} :
    exec i s = .next t ↔
      (∃ c, firstFailed i s = some c ∧ t = raiseError c.code c.addr s) ∨
      (ChecksPass i s ∧ LaunchAllowed i s ∧ execBody i s = .next t) := by
  rw [exec_eq, guarded_eq]
  show (match firstFailed i s with | some c => _ | none => _) = _ ↔ _
  cases h : firstFailed i s with
  | some c => simp [ChecksPass, h, eq_comm]
  | none => simp [ChecksPass, h, launch_next, LaunchAllowed, and_assoc]

end Sys2Proof.Machine
end

