-- ==== Sys2Proof/Laws/Limb.lean ====
section
/-! SUPPORT. What each operation of the limb form does to the value of the limbs and to their sizes (R169). -/

namespace Sys2Proof.Machine

open Sys2Proof

/-- Bits below a shifted word are added to it. -/
theorem or_shiftLeft (x y i : Nat) (h : x < 2 ^ i) : x ||| y <<< i = x + y * 2 ^ i := by
  rw [Nat.or_comm, ← Nat.shiftLeft_add_eq_or_of_lt h, Nat.shiftLeft_eq, Nat.add_comm]

theorem and_mask44 (x : Nat) : x &&& mask44 = x % 2 ^ 44 := Nat.and_two_pow_sub_one_eq_mod x 44

theorem and_mask42 (x : Nat) : x &&& mask42 = x % 2 ^ 42 := Nat.and_two_pow_sub_one_eq_mod x 42

/-- The limbs that one chunk adds, as numbers. -/
theorem limbAdd_eq (h : Limbs) (c : Str16) :
    limbAdd h c =
      ⟨h.l0 + c.toNat % 2 ^ 44, h.l1 + c.toNat / 2 ^ 44 % 2 ^ 44, h.l2 + (c.toNat / 2 ^ 88 + 2 ^ 40)⟩ := by
  have hc := c.isLt
  have h1 : (lowHalf c >>> 44 ||| highHalf c <<< 20) &&& mask44 = c.toNat / 2 ^ 44 % 2 ^ 44 := by
    rw [and_mask44, Nat.shiftRight_eq_div_pow, or_shiftLeft _ _ _ (by unfold lowHalf; omega)]
    unfold lowHalf highHalf
    omega
  have h2 : (highHalf c >>> 24 &&& mask42) ||| 2 ^ 40 = c.toNat / 2 ^ 88 + 2 ^ 40 := by
    have h3 : highHalf c >>> 24 &&& mask42 = c.toNat / 2 ^ 88 := by
      rw [and_mask42, Nat.shiftRight_eq_div_pow]
      unfold highHalf
      omega
    have h4 := or_shiftLeft (c.toNat / 2 ^ 88) 1 40 (by omega)
    rw [h3]
    simpa [Nat.shiftLeft_eq] using h4
  have h0 : lowHalf c &&& mask44 = c.toNat % 2 ^ 44 := by
    rw [and_mask44]
    unfold lowHalf
    omega
  simp only [limbAdd, h0, h1, h2]

/-- Adding a chunk adds its value with the high bit (R162). -/
theorem limbAdd_value (h : Limbs) (c : Str16) : (limbAdd h c).value = h.value + (c.toNat + 2 ^ 128) := by
  have hc := c.isLt
  rw [limbAdd_eq]
  simp only [Limbs.value]
  omega

/-- The column sums are worth the product up to a multiple of p. -/
theorem limbProduct_value (h r : Limbs) :
    h.value * r.value =
      (limbProduct h r).value + (h.l1 * r.l2 + h.l2 * r.l1 + h.l2 * r.l2 * 2 ^ 44) * 4 * (2 ^ 130 - 5) := by
  have hp : (2 ^ 130 - 5 : Nat) = 1361129467683753853853498429727072845819 := by norm_num
  rw [hp]
  simp only [Limbs.value, limbProduct]
  ring

/-- Carrying keeps the value up to a multiple of p. -/
theorem limbCarry_value (d : Limbs) : ∃ k, d.value = (limbCarry d).value + k * (2 ^ 130 - 5) := by
  refine ⟨(d.l2 + (d.l1 + d.l0 / 2 ^ 44) / 2 ^ 44) / 2 ^ 42, ?_⟩
  simp only [Limbs.value, limbCarry, and_mask44, and_mask42, Nat.shiftRight_eq_div_pow]
  omega

/-- A carry round of `finalize` keeps the value up to a multiple of p. -/
theorem limbRound_value (h : Limbs) : ∃ k, h.value = (limbRound h).value + k * (2 ^ 130 - 5) := by
  refine ⟨(h.l2 + h.l1 / 2 ^ 44) / 2 ^ 42, ?_⟩
  simp only [Limbs.value, limbRound, and_mask44, and_mask42, Nat.shiftRight_eq_div_pow]
  omega

/-- The limbs of the clamped key fit their sizes. -/
theorem limbKey_lt (k : Str16) : (limbKey k).l0 < 2 ^ 44 ∧ (limbKey k).l1 < 2 ^ 44 ∧ (limbKey k).l2 < 2 ^ 42 := by
  refine ⟨lt_of_le_of_lt Nat.and_le_right (by norm_num), lt_of_le_of_lt Nat.and_le_right (by norm_num),
    lt_of_le_of_lt Nat.and_le_right (by norm_num)⟩

end Sys2Proof.Machine
end

