-- ==== Sys2Proof/Laws/Memory.lean ====
section
/-! SUPPORT. Host memory: every operation keeps the canonical form, and what a host store can do. -/

namespace Sys2Proof.Machine

open Sys2Proof

@[simp] theorem Memory.get_nil (x : Nat) : Memory.get [] x = none := rfl

theorem Memory.get_cons (a : Nat) (b : Byte) (m : Memory) (x : Nat) :
    Memory.get ((a, b) :: m) x = if a = x then some b else Memory.get m x := rfl

theorem Memory.rising_tail (c : Host.Cell) (m : Memory) (h : Memory.rising (c :: m) = true) :
    Memory.rising m = true := by
  cases m with
  | nil => rfl
  | cons d m => simp [Memory.rising] at h; exact h.2

/-- In a rising list every later address lies above the first. -/
theorem Memory.rising_lt (c : Host.Cell) (m : Memory) (h : Memory.rising (c :: m) = true) : ∀ d ∈ m, c.1 < d.1 := by
  induction m generalizing c with
  | nil => simp
  | cons d m ih =>
    simp only [Memory.rising, Bool.and_eq_true, decide_eq_true_eq] at h
    intro e he
    rcases List.mem_cons.mp he with rfl | he
    · exact h.1
    · exact lt_trans h.1 (ih d h.2 e he)

theorem Memory.rising_cons (c : Host.Cell) (m : Memory) (hm : Memory.rising m = true) (hc : ∀ d ∈ m, c.1 < d.1) :
    Memory.rising (c :: m) = true := by
  cases m with
  | nil => rfl
  | cons d m => simp [Memory.rising, hm, hc d (by simp)]

theorem Memory.mem_set {m : Memory} {x : Nat} {v : Byte} {d : Host.Cell} (h : d ∈ m.set x v) : d = (x, v) ∨ d ∈ m := by
  induction m with
  | nil => simpa [Memory.set] using h
  | cons c m ih =>
    obtain ⟨a, b⟩ := c
    simp only [Memory.set] at h
    split at h
    · simpa using h
    · split at h
      · rcases List.mem_cons.mp h with h | h <;> simp [h]
      · rcases List.mem_cons.mp h with h | h
        · simp [h]
        · rcases ih h with h | h <;> simp [h]

theorem Memory.mem_erase {m : Memory} {x : Nat} {d : Host.Cell} (h : d ∈ m.erase x) : d ∈ m := by
  induction m with
  | nil => simp [Memory.erase] at h
  | cons c m ih =>
    obtain ⟨a, b⟩ := c
    simp only [Memory.erase] at h
    split at h
    · simp [h]
    · rcases List.mem_cons.mp h with h | h
      · simp [h]
      · simp [ih h]

/-- Putting a byte keeps the canonical form. -/
theorem Memory.wf_set (m : Memory) (x : Nat) (v : Byte) (h : m.wf) : (m.set x v).wf := by
  induction m with
  | nil => rfl
  | cons c m ih =>
    obtain ⟨a, b⟩ := c
    have ht := Memory.rising_tail _ _ h
    have hlt := Memory.rising_lt _ _ h
    simp only [Memory.set]
    split
    case isTrue hx => exact Memory.rising_cons _ _ h (by simp; exact ⟨hx, fun a' b' hb => lt_trans hx (hlt _ hb)⟩)
    case isFalse hx =>
      split
      case isTrue hax => subst hax; exact Memory.rising_cons _ _ ht hlt
      case isFalse hax =>
        refine Memory.rising_cons _ _ (ih ht) fun d hd => ?_
        rcases Memory.mem_set hd with rfl | hd
        · show a < x; omega
        · exact hlt d hd

/-- Taking an address out keeps the canonical form. -/
theorem Memory.wf_erase (m : Memory) (x : Nat) (h : m.wf) : (m.erase x).wf := by
  induction m with
  | nil => rfl
  | cons c m ih =>
    obtain ⟨a, b⟩ := c
    have ht := Memory.rising_tail _ _ h
    simp only [Memory.erase]
    split
    · exact ht
    · exact Memory.rising_cons _ _ (ih ht) fun d hd => Memory.rising_lt _ _ h d (Memory.mem_erase hd)

/-- All that a host store can do: it needs an address of host memory outside the register window, and then changes that byte
and, while a command runs, the racing addresses. -/
theorem hostStore_next {a : Nat} {b : Byte} {s t : State} (h : hostStore a b s = .next t) :
    ¬(s.cfg.regBase ≤ a ∧ a < s.cfg.regBase + 256) ∧ a < 2 ^ s.cfg.addrW ∧
    t = { s with mem := s.mem.set a b, raced := if s.fsm = .busy then insertAddr s.raced a else s.raced } := by
  unfold hostStore at h
  split at h
  · cases h
  case isFalse hw =>
    unfold storeByte at h
    split at h
    case isTrue ha => exact ⟨hw, ha, by simpa using h.symm⟩
    · cases h

/-- A host store never fails but in the window, which refuses it, and outside the address space, which faults. -/
theorem hostStore_answers (a : Nat) (b : Byte) (s : State) (hw : ¬(s.cfg.regBase ≤ a ∧ a < s.cfg.regBase + 256))
    (ha : a < 2 ^ s.cfg.addrW) :
    hostStore a b s =
      .next { s with mem := s.mem.set a b, raced := if s.fsm = .busy then insertAddr s.raced a else s.raced } := by
  simp [hostStore, hw, storeByte, ha]

end Sys2Proof.Machine
end

