-- ==== Sys2Proof/Laws/PerInstr.lean ====
section
/-! SUPPORT. Facts stated for every command, one lemma per constructor of `Instr`. -/

namespace Sys2Proof.Laws.TableRow

open Sys2Proof

/-- The mask of a command's row in spec/opcode_table.json: all of the word, but for `NH` the unit count (R83). -/
def mask : Instr → Word
  | .nh _ => 0xFFFF00FF
  | .nop | .kdf | .keyload | .tplInit | .polyInit | .polyUpd | .polyUpdnh | .polyFin | .combine | .hash => 0xFFFFFFFF

/-- The value that the masked word of a row must equal (R83). -/
def pattern : Instr → Word
  | .nop => 0x00000000
  | .kdf => 0x00000001
  | .keyload => 0x00000002
  | .tplInit => 0x00000003
  | .nh _ => 0x00000010
  | .polyInit => 0x00000020
  | .polyUpd => 0x00000021
  | .polyUpdnh => 0x00000022
  | .polyFin => 0x00000023
  | .combine => 0x00000030
  | .hash => 0x00000031

/-- The word of a command matches the mask and pattern of its row (R83). -/
def Statement (i : Instr) : Prop := encode i &&& mask i = pattern i

theorem nop : Statement .nop := rfl
theorem kdf : Statement .kdf := rfl
theorem keyload : Statement .keyload := rfl
theorem tplInit : Statement .tplInit := rfl
theorem polyInit : Statement .polyInit := rfl
theorem polyUpd : Statement .polyUpd := rfl
theorem polyUpdnh : Statement .polyUpdnh := rfl
theorem polyFin : Statement .polyFin := rfl
theorem combine : Statement .combine := rfl
theorem hash : Statement .hash := rfl

/-- Whatever the unit count is, its byte is masked out. -/
theorem nh (n : Nat) : Statement (.nh n) := by
  have h : ∀ b : Byte, ((0 : BitVec 16) ++ b ++ (0x10 : Byte)) &&& (0xFFFF00FF : Word) = 0x00000010 := by decide
  exact h (BitVec.ofNat 8 n)

end Sys2Proof.Laws.TableRow
end

