-- ==== Sys2Proof/Laws/State.lean ====
section
/-! SUPPORT. What each named update does to each field of the state: one lemma a field, so that no later proof unfolds a record
update. -/

namespace Sys2Proof.Machine

open Sys2Proof

variable (s : State)

/-! `finish` (R223): the sequencer, what exists only inside a command, `DONE` and the count of draws. -/

@[simp] theorem finish_cfg : (finish s).cfg = s.cfg := rfl
@[simp] theorem finish_ctrl : (finish s).ctrl = s.ctrl := rfl
@[simp] theorem finish_status : (finish s).status = { s.status with done := true } := rfl
@[simp] theorem finish_opnd : (finish s).opnd = s.opnd := rfl
@[simp] theorem finish_errAddr : (finish s).errAddr = s.errAddr := rfl
@[simp] theorem finish_nhd : (finish s).nhd = s.nhd := rfl
@[simp] theorem finish_pd : (finish s).pd = s.pd := rfl
@[simp] theorem finish_hd : (finish s).hd = s.hd := rfl
@[simp] theorem finish_fsm : (finish s).fsm = .idle := rfl
@[simp] theorem finish_lat : (finish s).lat = Lat.none := rfl
@[simp] theorem finish_keyram : (finish s).keyram = s.keyram := rfl
@[simp] theorem finish_tpl : (finish s).tpl = s.tpl := rfl
@[simp] theorem finish_r : (finish s).r = s.r := rfl
@[simp] theorem finish_h : (finish s).h = s.h := rfl
@[simp] theorem finish_work : (finish s).work = Work.none := rfl
@[simp] theorem finish_mem : (finish s).mem = s.mem := rfl
@[simp] theorem finish_xofPort : (finish s).xofPort = s.xofPort := rfl
@[simp] theorem finish_kmacPort : (finish s).kmacPort = s.kmacPort := rfl
@[simp] theorem finish_raced : (finish s).raced = [] := rfl
@[simp] theorem finish_draws : (finish s).draws = s.draws + 1 := rfl
@[simp] theorem finish_rdata : (finish s).rdata = s.rdata := rfl
@[simp] theorem finish_inputs : (finish s).inputs = s.inputs := rfl

/-! `raiseError` (R224): as `finish`, with `ERR`, `ERRCODE` and, for two codes, `ERR_ADDR`. -/

@[simp] theorem raiseError_cfg (c : ErrCode) (i : DWord) : (raiseError c i s).cfg = s.cfg := rfl
@[simp] theorem raiseError_ctrl (c : ErrCode) (i : DWord) : (raiseError c i s).ctrl = s.ctrl := rfl
@[simp] theorem raiseError_status (c : ErrCode) (i : DWord) : (raiseError c i s).status = { s.status with errCode := c, err := true, done := true } := rfl
@[simp] theorem raiseError_opnd (c : ErrCode) (i : DWord) : (raiseError c i s).opnd = s.opnd := rfl
@[simp] theorem raiseError_errAddr (c : ErrCode) (i : DWord) : (raiseError c i s).errAddr = if c.recordsAddr then i else s.errAddr := rfl
@[simp] theorem raiseError_nhd (c : ErrCode) (i : DWord) : (raiseError c i s).nhd = s.nhd := rfl
@[simp] theorem raiseError_pd (c : ErrCode) (i : DWord) : (raiseError c i s).pd = s.pd := rfl
@[simp] theorem raiseError_hd (c : ErrCode) (i : DWord) : (raiseError c i s).hd = s.hd := rfl
@[simp] theorem raiseError_fsm (c : ErrCode) (i : DWord) : (raiseError c i s).fsm = .idle := rfl
@[simp] theorem raiseError_lat (c : ErrCode) (i : DWord) : (raiseError c i s).lat = Lat.none := rfl
@[simp] theorem raiseError_keyram (c : ErrCode) (i : DWord) : (raiseError c i s).keyram = s.keyram := rfl
@[simp] theorem raiseError_tpl (c : ErrCode) (i : DWord) : (raiseError c i s).tpl = s.tpl := rfl
@[simp] theorem raiseError_r (c : ErrCode) (i : DWord) : (raiseError c i s).r = s.r := rfl
@[simp] theorem raiseError_h (c : ErrCode) (i : DWord) : (raiseError c i s).h = s.h := rfl
@[simp] theorem raiseError_work (c : ErrCode) (i : DWord) : (raiseError c i s).work = Work.none := rfl
@[simp] theorem raiseError_mem (c : ErrCode) (i : DWord) : (raiseError c i s).mem = s.mem := rfl
@[simp] theorem raiseError_xofPort (c : ErrCode) (i : DWord) : (raiseError c i s).xofPort = s.xofPort := rfl
@[simp] theorem raiseError_kmacPort (c : ErrCode) (i : DWord) : (raiseError c i s).kmacPort = s.kmacPort := rfl
@[simp] theorem raiseError_raced (c : ErrCode) (i : DWord) : (raiseError c i s).raced = [] := rfl
@[simp] theorem raiseError_draws (c : ErrCode) (i : DWord) : (raiseError c i s).draws = s.draws + 1 := rfl
@[simp] theorem raiseError_rdata (c : ErrCode) (i : DWord) : (raiseError c i s).rdata = s.rdata := rfl
@[simp] theorem raiseError_inputs (c : ErrCode) (i : DWord) : (raiseError c i s).inputs = s.inputs := rfl

/-! `accept` (R102). -/

@[simp] theorem accept_cfg (w : Word) : (accept w s).cfg = s.cfg := rfl
@[simp] theorem accept_ctrl (w : Word) : (accept w s).ctrl = s.ctrl := rfl
@[simp] theorem accept_status (w : Word) : (accept w s).status = { s.status with done := false, err := false, errCode := .none, lastOp := opField w, vecUsed := showsVector w && vecSelect s } := rfl
@[simp] theorem accept_opnd (w : Word) : (accept w s).opnd = s.opnd := rfl
@[simp] theorem accept_errAddr (w : Word) : (accept w s).errAddr = s.errAddr := rfl
@[simp] theorem accept_nhd (w : Word) : (accept w s).nhd = s.nhd := rfl
@[simp] theorem accept_pd (w : Word) : (accept w s).pd = s.pd := rfl
@[simp] theorem accept_hd (w : Word) : (accept w s).hd = s.hd := rfl
@[simp] theorem accept_fsm (w : Word) : (accept w s).fsm = .busy := rfl
@[simp] theorem accept_lat (w : Word) : (accept w s).lat = latch w s := rfl
@[simp] theorem accept_keyram (w : Word) : (accept w s).keyram = s.keyram := rfl
@[simp] theorem accept_tpl (w : Word) : (accept w s).tpl = s.tpl := rfl
@[simp] theorem accept_r (w : Word) : (accept w s).r = s.r := rfl
@[simp] theorem accept_h (w : Word) : (accept w s).h = s.h := rfl
@[simp] theorem accept_work (w : Word) : (accept w s).work = { Work.none with vecSel := vecSelect s } := rfl
@[simp] theorem accept_mem (w : Word) : (accept w s).mem = s.mem := rfl
@[simp] theorem accept_xofPort (w : Word) : (accept w s).xofPort = s.xofPort := rfl
@[simp] theorem accept_kmacPort (w : Word) : (accept w s).kmacPort = s.kmacPort := rfl
@[simp] theorem accept_raced (w : Word) : (accept w s).raced = [] := rfl
@[simp] theorem accept_draws (w : Word) : (accept w s).draws = s.draws := rfl
@[simp] theorem accept_rdata (w : Word) : (accept w s).rdata = s.rdata := rfl
@[simp] theorem accept_inputs (w : Word) : (accept w s).inputs = s.inputs := rfl

/-! `acknowledge` (R29): three bits of `STATUS`. -/

@[simp] theorem acknowledge_cfg (v : Word) : (acknowledge v s).cfg = s.cfg := rfl
@[simp] theorem acknowledge_ctrl (v : Word) : (acknowledge v s).ctrl = s.ctrl := rfl
@[simp] theorem acknowledge_status (v : Word) : (acknowledge v s).status = { s.status with done := s.status.done && !v.getLsbD 1, err := s.status.err && !v.getLsbD 2, ovr := s.status.ovr && !v.getLsbD 3 } := rfl
@[simp] theorem acknowledge_opnd (v : Word) : (acknowledge v s).opnd = s.opnd := rfl
@[simp] theorem acknowledge_errAddr (v : Word) : (acknowledge v s).errAddr = s.errAddr := rfl
@[simp] theorem acknowledge_nhd (v : Word) : (acknowledge v s).nhd = s.nhd := rfl
@[simp] theorem acknowledge_pd (v : Word) : (acknowledge v s).pd = s.pd := rfl
@[simp] theorem acknowledge_hd (v : Word) : (acknowledge v s).hd = s.hd := rfl
@[simp] theorem acknowledge_fsm (v : Word) : (acknowledge v s).fsm = s.fsm := rfl
@[simp] theorem acknowledge_lat (v : Word) : (acknowledge v s).lat = s.lat := rfl
@[simp] theorem acknowledge_keyram (v : Word) : (acknowledge v s).keyram = s.keyram := rfl
@[simp] theorem acknowledge_tpl (v : Word) : (acknowledge v s).tpl = s.tpl := rfl
@[simp] theorem acknowledge_r (v : Word) : (acknowledge v s).r = s.r := rfl
@[simp] theorem acknowledge_h (v : Word) : (acknowledge v s).h = s.h := rfl
@[simp] theorem acknowledge_work (v : Word) : (acknowledge v s).work = s.work := rfl
@[simp] theorem acknowledge_mem (v : Word) : (acknowledge v s).mem = s.mem := rfl
@[simp] theorem acknowledge_xofPort (v : Word) : (acknowledge v s).xofPort = s.xofPort := rfl
@[simp] theorem acknowledge_kmacPort (v : Word) : (acknowledge v s).kmacPort = s.kmacPort := rfl
@[simp] theorem acknowledge_raced (v : Word) : (acknowledge v s).raced = s.raced := rfl
@[simp] theorem acknowledge_draws (v : Word) : (acknowledge v s).draws = s.draws := rfl
@[simp] theorem acknowledge_rdata (v : Word) : (acknowledge v s).rdata = s.rdata := rfl
@[simp] theorem acknowledge_inputs (v : Word) : (acknowledge v s).inputs = s.inputs := rfl

/-! `spoilKey` (R130). -/

@[simp] theorem spoilKey_cfg : (spoilKey s).cfg = s.cfg := rfl
@[simp] theorem spoilKey_ctrl : (spoilKey s).ctrl = s.ctrl := rfl
@[simp] theorem spoilKey_status : (spoilKey s).status = { s.status with keyValid := false, tplValid := false, polyValid := false } := rfl
@[simp] theorem spoilKey_opnd : (spoilKey s).opnd = s.opnd := rfl
@[simp] theorem spoilKey_errAddr : (spoilKey s).errAddr = s.errAddr := rfl
@[simp] theorem spoilKey_nhd : (spoilKey s).nhd = s.nhd := rfl
@[simp] theorem spoilKey_pd : (spoilKey s).pd = s.pd := rfl
@[simp] theorem spoilKey_hd : (spoilKey s).hd = s.hd := rfl
@[simp] theorem spoilKey_fsm : (spoilKey s).fsm = s.fsm := rfl
@[simp] theorem spoilKey_lat : (spoilKey s).lat = s.lat := rfl
@[simp] theorem spoilKey_keyram : (spoilKey s).keyram = Config.freeKey s.draws := rfl
@[simp] theorem spoilKey_tpl : (spoilKey s).tpl = s.tpl := rfl
@[simp] theorem spoilKey_r : (spoilKey s).r = s.r := rfl
@[simp] theorem spoilKey_h : (spoilKey s).h = s.h := rfl
@[simp] theorem spoilKey_work : (spoilKey s).work = s.work := rfl
@[simp] theorem spoilKey_mem : (spoilKey s).mem = s.mem := rfl
@[simp] theorem spoilKey_xofPort : (spoilKey s).xofPort = s.xofPort := rfl
@[simp] theorem spoilKey_kmacPort : (spoilKey s).kmacPort = s.kmacPort := rfl
@[simp] theorem spoilKey_raced : (spoilKey s).raced = s.raced := rfl
@[simp] theorem spoilKey_draws : (spoilKey s).draws = s.draws := rfl
@[simp] theorem spoilKey_rdata : (spoilKey s).rdata = s.rdata := rfl
@[simp] theorem spoilKey_inputs : (spoilKey s).inputs = s.inputs := rfl

/-! `spoilAcc` (R172, R189). -/

@[simp] theorem spoilAcc_cfg : (spoilAcc s).cfg = s.cfg := rfl
@[simp] theorem spoilAcc_ctrl : (spoilAcc s).ctrl = s.ctrl := rfl
@[simp] theorem spoilAcc_status : (spoilAcc s).status = { s.status with polyValid := false } := rfl
@[simp] theorem spoilAcc_opnd : (spoilAcc s).opnd = s.opnd := rfl
@[simp] theorem spoilAcc_errAddr : (spoilAcc s).errAddr = s.errAddr := rfl
@[simp] theorem spoilAcc_nhd : (spoilAcc s).nhd = s.nhd := rfl
@[simp] theorem spoilAcc_pd : (spoilAcc s).pd = s.pd := rfl
@[simp] theorem spoilAcc_hd : (spoilAcc s).hd = s.hd := rfl
@[simp] theorem spoilAcc_fsm : (spoilAcc s).fsm = s.fsm := rfl
@[simp] theorem spoilAcc_lat : (spoilAcc s).lat = s.lat := rfl
@[simp] theorem spoilAcc_keyram : (spoilAcc s).keyram = s.keyram := rfl
@[simp] theorem spoilAcc_tpl : (spoilAcc s).tpl = s.tpl := rfl
@[simp] theorem spoilAcc_r : (spoilAcc s).r = Config.freeR s.draws := rfl
@[simp] theorem spoilAcc_h : (spoilAcc s).h = freeResidue s.draws := rfl
@[simp] theorem spoilAcc_work : (spoilAcc s).work = s.work := rfl
@[simp] theorem spoilAcc_mem : (spoilAcc s).mem = s.mem := rfl
@[simp] theorem spoilAcc_xofPort : (spoilAcc s).xofPort = s.xofPort := rfl
@[simp] theorem spoilAcc_kmacPort : (spoilAcc s).kmacPort = s.kmacPort := rfl
@[simp] theorem spoilAcc_raced : (spoilAcc s).raced = s.raced := rfl
@[simp] theorem spoilAcc_draws : (spoilAcc s).draws = s.draws := rfl
@[simp] theorem spoilAcc_rdata : (spoilAcc s).rdata = s.rdata := rfl
@[simp] theorem spoilAcc_inputs : (spoilAcc s).inputs = s.inputs := rfl

/-! `dropTemplate` (R128). -/

@[simp] theorem dropTemplate_cfg : (dropTemplate s).cfg = s.cfg := rfl
@[simp] theorem dropTemplate_ctrl : (dropTemplate s).ctrl = s.ctrl := rfl
@[simp] theorem dropTemplate_status : (dropTemplate s).status = { s.status with tplValid := false } := rfl
@[simp] theorem dropTemplate_opnd : (dropTemplate s).opnd = s.opnd := rfl
@[simp] theorem dropTemplate_errAddr : (dropTemplate s).errAddr = s.errAddr := rfl
@[simp] theorem dropTemplate_nhd : (dropTemplate s).nhd = s.nhd := rfl
@[simp] theorem dropTemplate_pd : (dropTemplate s).pd = s.pd := rfl
@[simp] theorem dropTemplate_hd : (dropTemplate s).hd = s.hd := rfl
@[simp] theorem dropTemplate_fsm : (dropTemplate s).fsm = s.fsm := rfl
@[simp] theorem dropTemplate_lat : (dropTemplate s).lat = s.lat := rfl
@[simp] theorem dropTemplate_keyram : (dropTemplate s).keyram = s.keyram := rfl
@[simp] theorem dropTemplate_tpl : (dropTemplate s).tpl = s.tpl := rfl
@[simp] theorem dropTemplate_r : (dropTemplate s).r = s.r := rfl
@[simp] theorem dropTemplate_h : (dropTemplate s).h = s.h := rfl
@[simp] theorem dropTemplate_work : (dropTemplate s).work = s.work := rfl
@[simp] theorem dropTemplate_mem : (dropTemplate s).mem = s.mem := rfl
@[simp] theorem dropTemplate_xofPort : (dropTemplate s).xofPort = s.xofPort := rfl
@[simp] theorem dropTemplate_kmacPort : (dropTemplate s).kmacPort = s.kmacPort := rfl
@[simp] theorem dropTemplate_raced : (dropTemplate s).raced = s.raced := rfl
@[simp] theorem dropTemplate_draws : (dropTemplate s).draws = s.draws := rfl
@[simp] theorem dropTemplate_rdata : (dropTemplate s).rdata = s.rdata := rfl
@[simp] theorem dropTemplate_inputs : (dropTemplate s).inputs = s.inputs := rfl

/-! `spoilHash` (R204). -/

@[simp] theorem spoilHash_cfg : (spoilHash s).cfg = s.cfg := rfl
@[simp] theorem spoilHash_ctrl : (spoilHash s).ctrl = s.ctrl := rfl
@[simp] theorem spoilHash_status : (spoilHash s).status = { s.status with polyValid := false, tplValid := false } := rfl
@[simp] theorem spoilHash_opnd : (spoilHash s).opnd = s.opnd := rfl
@[simp] theorem spoilHash_errAddr : (spoilHash s).errAddr = s.errAddr := rfl
@[simp] theorem spoilHash_nhd : (spoilHash s).nhd = s.nhd := rfl
@[simp] theorem spoilHash_pd : (spoilHash s).pd = s.pd := rfl
@[simp] theorem spoilHash_hd : (spoilHash s).hd = s.hd := rfl
@[simp] theorem spoilHash_fsm : (spoilHash s).fsm = s.fsm := rfl
@[simp] theorem spoilHash_lat : (spoilHash s).lat = s.lat := rfl
@[simp] theorem spoilHash_keyram : (spoilHash s).keyram = s.keyram := rfl
@[simp] theorem spoilHash_tpl : (spoilHash s).tpl = s.tpl := rfl
@[simp] theorem spoilHash_r : (spoilHash s).r = Config.freeR s.draws := rfl
@[simp] theorem spoilHash_h : (spoilHash s).h = freeResidue s.draws := rfl
@[simp] theorem spoilHash_work : (spoilHash s).work = s.work := rfl
@[simp] theorem spoilHash_mem : (spoilHash s).mem = s.mem := rfl
@[simp] theorem spoilHash_xofPort : (spoilHash s).xofPort = s.xofPort := rfl
@[simp] theorem spoilHash_kmacPort : (spoilHash s).kmacPort = s.kmacPort := rfl
@[simp] theorem spoilHash_raced : (spoilHash s).raced = s.raced := rfl
@[simp] theorem spoilHash_draws : (spoilHash s).draws = s.draws := rfl
@[simp] theorem spoilHash_rdata : (spoilHash s).rdata = s.rdata := rfl
@[simp] theorem spoilHash_inputs : (spoilHash s).inputs = s.inputs := rfl

/-! `storeKey` (R121, R124). -/

@[simp] theorem storeKey_cfg (k : DerivedKey) : (storeKey k s).cfg = s.cfg := rfl
@[simp] theorem storeKey_ctrl (k : DerivedKey) : (storeKey k s).ctrl = s.ctrl := rfl
@[simp] theorem storeKey_status (k : DerivedKey) : (storeKey k s).status = { s.status with keyValid := true, tplValid := false, polyValid := false } := rfl
@[simp] theorem storeKey_opnd (k : DerivedKey) : (storeKey k s).opnd = s.opnd := rfl
@[simp] theorem storeKey_errAddr (k : DerivedKey) : (storeKey k s).errAddr = s.errAddr := rfl
@[simp] theorem storeKey_nhd (k : DerivedKey) : (storeKey k s).nhd = s.nhd := rfl
@[simp] theorem storeKey_pd (k : DerivedKey) : (storeKey k s).pd = s.pd := rfl
@[simp] theorem storeKey_hd (k : DerivedKey) : (storeKey k s).hd = s.hd := rfl
@[simp] theorem storeKey_fsm (k : DerivedKey) : (storeKey k s).fsm = s.fsm := rfl
@[simp] theorem storeKey_lat (k : DerivedKey) : (storeKey k s).lat = s.lat := rfl
@[simp] theorem storeKey_keyram (k : DerivedKey) : (storeKey k s).keyram = k := rfl
@[simp] theorem storeKey_tpl (k : DerivedKey) : (storeKey k s).tpl = s.tpl := rfl
@[simp] theorem storeKey_r (k : DerivedKey) : (storeKey k s).r = s.r := rfl
@[simp] theorem storeKey_h (k : DerivedKey) : (storeKey k s).h = s.h := rfl
@[simp] theorem storeKey_work (k : DerivedKey) : (storeKey k s).work = s.work := rfl
@[simp] theorem storeKey_mem (k : DerivedKey) : (storeKey k s).mem = s.mem := rfl
@[simp] theorem storeKey_xofPort (k : DerivedKey) : (storeKey k s).xofPort = s.xofPort := rfl
@[simp] theorem storeKey_kmacPort (k : DerivedKey) : (storeKey k s).kmacPort = s.kmacPort := rfl
@[simp] theorem storeKey_raced (k : DerivedKey) : (storeKey k s).raced = s.raced := rfl
@[simp] theorem storeKey_draws (k : DerivedKey) : (storeKey k s).draws = s.draws := rfl
@[simp] theorem storeKey_rdata (k : DerivedKey) : (storeKey k s).rdata = s.rdata := rfl
@[simp] theorem storeKey_inputs (k : DerivedKey) : (storeKey k s).inputs = s.inputs := rfl

/-! `storeTemplate` (R127). -/

@[simp] theorem storeTemplate_cfg (p : Template) : (storeTemplate p s).cfg = s.cfg := rfl
@[simp] theorem storeTemplate_ctrl (p : Template) : (storeTemplate p s).ctrl = s.ctrl := rfl
@[simp] theorem storeTemplate_status (p : Template) : (storeTemplate p s).status = { s.status with tplValid := true } := rfl
@[simp] theorem storeTemplate_opnd (p : Template) : (storeTemplate p s).opnd = s.opnd := rfl
@[simp] theorem storeTemplate_errAddr (p : Template) : (storeTemplate p s).errAddr = s.errAddr := rfl
@[simp] theorem storeTemplate_nhd (p : Template) : (storeTemplate p s).nhd = s.nhd := rfl
@[simp] theorem storeTemplate_pd (p : Template) : (storeTemplate p s).pd = s.pd := rfl
@[simp] theorem storeTemplate_hd (p : Template) : (storeTemplate p s).hd = s.hd := rfl
@[simp] theorem storeTemplate_fsm (p : Template) : (storeTemplate p s).fsm = s.fsm := rfl
@[simp] theorem storeTemplate_lat (p : Template) : (storeTemplate p s).lat = s.lat := rfl
@[simp] theorem storeTemplate_keyram (p : Template) : (storeTemplate p s).keyram = s.keyram := rfl
@[simp] theorem storeTemplate_tpl (p : Template) : (storeTemplate p s).tpl = p := rfl
@[simp] theorem storeTemplate_r (p : Template) : (storeTemplate p s).r = s.r := rfl
@[simp] theorem storeTemplate_h (p : Template) : (storeTemplate p s).h = s.h := rfl
@[simp] theorem storeTemplate_work (p : Template) : (storeTemplate p s).work = s.work := rfl
@[simp] theorem storeTemplate_mem (p : Template) : (storeTemplate p s).mem = s.mem := rfl
@[simp] theorem storeTemplate_xofPort (p : Template) : (storeTemplate p s).xofPort = s.xofPort := rfl
@[simp] theorem storeTemplate_kmacPort (p : Template) : (storeTemplate p s).kmacPort = s.kmacPort := rfl
@[simp] theorem storeTemplate_raced (p : Template) : (storeTemplate p s).raced = s.raced := rfl
@[simp] theorem storeTemplate_draws (p : Template) : (storeTemplate p s).draws = s.draws := rfl
@[simp] theorem storeTemplate_rdata (p : Template) : (storeTemplate p s).rdata = s.rdata := rfl
@[simp] theorem storeTemplate_inputs (p : Template) : (storeTemplate p s).inputs = s.inputs := rfl

/-! `storeNh` (R141). -/

@[simp] theorem storeNh_cfg (a : NhAcc) : (storeNh a s).cfg = s.cfg := rfl
@[simp] theorem storeNh_ctrl (a : NhAcc) : (storeNh a s).ctrl = s.ctrl := rfl
@[simp] theorem storeNh_status (a : NhAcc) : (storeNh a s).status = s.status := rfl
@[simp] theorem storeNh_opnd (a : NhAcc) : (storeNh a s).opnd = s.opnd := rfl
@[simp] theorem storeNh_errAddr (a : NhAcc) : (storeNh a s).errAddr = s.errAddr := rfl
@[simp] theorem storeNh_nhd (a : NhAcc) : (storeNh a s).nhd = nhDigest a := rfl
@[simp] theorem storeNh_pd (a : NhAcc) : (storeNh a s).pd = s.pd := rfl
@[simp] theorem storeNh_hd (a : NhAcc) : (storeNh a s).hd = s.hd := rfl
@[simp] theorem storeNh_fsm (a : NhAcc) : (storeNh a s).fsm = s.fsm := rfl
@[simp] theorem storeNh_lat (a : NhAcc) : (storeNh a s).lat = s.lat := rfl
@[simp] theorem storeNh_keyram (a : NhAcc) : (storeNh a s).keyram = s.keyram := rfl
@[simp] theorem storeNh_tpl (a : NhAcc) : (storeNh a s).tpl = s.tpl := rfl
@[simp] theorem storeNh_r (a : NhAcc) : (storeNh a s).r = s.r := rfl
@[simp] theorem storeNh_h (a : NhAcc) : (storeNh a s).h = s.h := rfl
@[simp] theorem storeNh_work (a : NhAcc) : (storeNh a s).work = { s.work with nh := a } := rfl
@[simp] theorem storeNh_mem (a : NhAcc) : (storeNh a s).mem = s.mem := rfl
@[simp] theorem storeNh_xofPort (a : NhAcc) : (storeNh a s).xofPort = s.xofPort := rfl
@[simp] theorem storeNh_kmacPort (a : NhAcc) : (storeNh a s).kmacPort = s.kmacPort := rfl
@[simp] theorem storeNh_raced (a : NhAcc) : (storeNh a s).raced = s.raced := rfl
@[simp] theorem storeNh_draws (a : NhAcc) : (storeNh a s).draws = s.draws := rfl
@[simp] theorem storeNh_rdata (a : NhAcc) : (storeNh a s).rdata = s.rdata := rfl
@[simp] theorem storeNh_inputs (a : NhAcc) : (storeNh a s).inputs = s.inputs := rfl

/-! `storeFresh` (R160). -/

@[simp] theorem storeFresh_cfg : (storeFresh s).cfg = s.cfg := rfl
@[simp] theorem storeFresh_ctrl : (storeFresh s).ctrl = s.ctrl := rfl
@[simp] theorem storeFresh_status : (storeFresh s).status = { s.status with polyValid := true } := rfl
@[simp] theorem storeFresh_opnd : (storeFresh s).opnd = s.opnd := rfl
@[simp] theorem storeFresh_errAddr : (storeFresh s).errAddr = s.errAddr := rfl
@[simp] theorem storeFresh_nhd : (storeFresh s).nhd = s.nhd := rfl
@[simp] theorem storeFresh_pd : (storeFresh s).pd = s.pd := rfl
@[simp] theorem storeFresh_hd : (storeFresh s).hd = s.hd := rfl
@[simp] theorem storeFresh_fsm : (storeFresh s).fsm = s.fsm := rfl
@[simp] theorem storeFresh_lat : (storeFresh s).lat = s.lat := rfl
@[simp] theorem storeFresh_keyram : (storeFresh s).keyram = s.keyram := rfl
@[simp] theorem storeFresh_tpl : (storeFresh s).tpl = s.tpl := rfl
@[simp] theorem storeFresh_r : (storeFresh s).r = clamp (polyKey s.keyram) := rfl
@[simp] theorem storeFresh_h : (storeFresh s).h = 0 := rfl
@[simp] theorem storeFresh_work : (storeFresh s).work = s.work := rfl
@[simp] theorem storeFresh_mem : (storeFresh s).mem = s.mem := rfl
@[simp] theorem storeFresh_xofPort : (storeFresh s).xofPort = s.xofPort := rfl
@[simp] theorem storeFresh_kmacPort : (storeFresh s).kmacPort = s.kmacPort := rfl
@[simp] theorem storeFresh_raced : (storeFresh s).raced = s.raced := rfl
@[simp] theorem storeFresh_draws : (storeFresh s).draws = s.draws := rfl
@[simp] theorem storeFresh_rdata : (storeFresh s).rdata = s.rdata := rfl
@[simp] theorem storeFresh_inputs : (storeFresh s).inputs = s.inputs := rfl

/-! `foldInto` (R163). -/

@[simp] theorem foldInto_cfg (d : Bytes) : (foldInto d s).cfg = s.cfg := rfl
@[simp] theorem foldInto_ctrl (d : Bytes) : (foldInto d s).ctrl = s.ctrl := rfl
@[simp] theorem foldInto_status (d : Bytes) : (foldInto d s).status = s.status := rfl
@[simp] theorem foldInto_opnd (d : Bytes) : (foldInto d s).opnd = s.opnd := rfl
@[simp] theorem foldInto_errAddr (d : Bytes) : (foldInto d s).errAddr = s.errAddr := rfl
@[simp] theorem foldInto_nhd (d : Bytes) : (foldInto d s).nhd = s.nhd := rfl
@[simp] theorem foldInto_pd (d : Bytes) : (foldInto d s).pd = s.pd := rfl
@[simp] theorem foldInto_hd (d : Bytes) : (foldInto d s).hd = s.hd := rfl
@[simp] theorem foldInto_fsm (d : Bytes) : (foldInto d s).fsm = s.fsm := rfl
@[simp] theorem foldInto_lat (d : Bytes) : (foldInto d s).lat = s.lat := rfl
@[simp] theorem foldInto_keyram (d : Bytes) : (foldInto d s).keyram = s.keyram := rfl
@[simp] theorem foldInto_tpl (d : Bytes) : (foldInto d s).tpl = s.tpl := rfl
@[simp] theorem foldInto_r (d : Bytes) : (foldInto d s).r = s.r := rfl
@[simp] theorem foldInto_h (d : Bytes) : (foldInto d s).h = fold s.r s.h d := rfl
@[simp] theorem foldInto_work (d : Bytes) : (foldInto d s).work = s.work := rfl
@[simp] theorem foldInto_mem (d : Bytes) : (foldInto d s).mem = s.mem := rfl
@[simp] theorem foldInto_xofPort (d : Bytes) : (foldInto d s).xofPort = s.xofPort := rfl
@[simp] theorem foldInto_kmacPort (d : Bytes) : (foldInto d s).kmacPort = s.kmacPort := rfl
@[simp] theorem foldInto_raced (d : Bytes) : (foldInto d s).raced = s.raced := rfl
@[simp] theorem foldInto_draws (d : Bytes) : (foldInto d s).draws = s.draws := rfl
@[simp] theorem foldInto_rdata (d : Bytes) : (foldInto d s).rdata = s.rdata := rfl
@[simp] theorem foldInto_inputs (d : Bytes) : (foldInto d s).inputs = s.inputs := rfl

/-! `storeComb` (R181, R191). -/

@[simp] theorem storeComb_cfg (c : Comb) : (storeComb c s).cfg = s.cfg := rfl
@[simp] theorem storeComb_ctrl (c : Comb) : (storeComb c s).ctrl = s.ctrl := rfl
@[simp] theorem storeComb_status (c : Comb) : (storeComb c s).status = { s.status with polyValid := true } := rfl
@[simp] theorem storeComb_opnd (c : Comb) : (storeComb c s).opnd = s.opnd := rfl
@[simp] theorem storeComb_errAddr (c : Comb) : (storeComb c s).errAddr = s.errAddr := rfl
@[simp] theorem storeComb_nhd (c : Comb) : (storeComb c s).nhd = s.nhd := rfl
@[simp] theorem storeComb_pd (c : Comb) : (storeComb c s).pd = finalize c.h := rfl
@[simp] theorem storeComb_hd (c : Comb) : (storeComb c s).hd = s.hd := rfl
@[simp] theorem storeComb_fsm (c : Comb) : (storeComb c s).fsm = s.fsm := rfl
@[simp] theorem storeComb_lat (c : Comb) : (storeComb c s).lat = s.lat := rfl
@[simp] theorem storeComb_keyram (c : Comb) : (storeComb c s).keyram = s.keyram := rfl
@[simp] theorem storeComb_tpl (c : Comb) : (storeComb c s).tpl = s.tpl := rfl
@[simp] theorem storeComb_r (c : Comb) : (storeComb c s).r = clamp (polyKey s.keyram) := rfl
@[simp] theorem storeComb_h (c : Comb) : (storeComb c s).h = c.h := rfl
@[simp] theorem storeComb_work (c : Comb) : (storeComb c s).work = c.work := rfl
@[simp] theorem storeComb_mem (c : Comb) : (storeComb c s).mem = s.mem := rfl
@[simp] theorem storeComb_xofPort (c : Comb) : (storeComb c s).xofPort = s.xofPort := rfl
@[simp] theorem storeComb_kmacPort (c : Comb) : (storeComb c s).kmacPort = s.kmacPort := rfl
@[simp] theorem storeComb_raced (c : Comb) : (storeComb c s).raced = s.raced := rfl
@[simp] theorem storeComb_draws (c : Comb) : (storeComb c s).draws = s.draws := rfl
@[simp] theorem storeComb_rdata (c : Comb) : (storeComb c s).rdata = s.rdata := rfl
@[simp] theorem storeComb_inputs (c : Comb) : (storeComb c s).inputs = s.inputs := rfl

/-! `storeHash` (R201). -/

@[simp] theorem storeHash_cfg (d : Str32) : (storeHash d s).cfg = s.cfg := rfl
@[simp] theorem storeHash_ctrl (d : Str32) : (storeHash d s).ctrl = s.ctrl := rfl
@[simp] theorem storeHash_status (d : Str32) : (storeHash d s).status = s.status := rfl
@[simp] theorem storeHash_opnd (d : Str32) : (storeHash d s).opnd = s.opnd := rfl
@[simp] theorem storeHash_errAddr (d : Str32) : (storeHash d s).errAddr = s.errAddr := rfl
@[simp] theorem storeHash_nhd (d : Str32) : (storeHash d s).nhd = s.nhd := rfl
@[simp] theorem storeHash_pd (d : Str32) : (storeHash d s).pd = s.pd := rfl
@[simp] theorem storeHash_hd (d : Str32) : (storeHash d s).hd = d := rfl
@[simp] theorem storeHash_fsm (d : Str32) : (storeHash d s).fsm = s.fsm := rfl
@[simp] theorem storeHash_lat (d : Str32) : (storeHash d s).lat = s.lat := rfl
@[simp] theorem storeHash_keyram (d : Str32) : (storeHash d s).keyram = s.keyram := rfl
@[simp] theorem storeHash_tpl (d : Str32) : (storeHash d s).tpl = s.tpl := rfl
@[simp] theorem storeHash_r (d : Str32) : (storeHash d s).r = s.r := rfl
@[simp] theorem storeHash_h (d : Str32) : (storeHash d s).h = s.h := rfl
@[simp] theorem storeHash_work (d : Str32) : (storeHash d s).work = s.work := rfl
@[simp] theorem storeHash_mem (d : Str32) : (storeHash d s).mem = s.mem := rfl
@[simp] theorem storeHash_xofPort (d : Str32) : (storeHash d s).xofPort = s.xofPort := rfl
@[simp] theorem storeHash_kmacPort (d : Str32) : (storeHash d s).kmacPort = s.kmacPort := rfl
@[simp] theorem storeHash_raced (d : Str32) : (storeHash d s).raced = s.raced := rfl
@[simp] theorem storeHash_draws (d : Str32) : (storeHash d s).draws = s.draws := rfl
@[simp] theorem storeHash_rdata (d : Str32) : (storeHash d s).rdata = s.rdata := rfl
@[simp] theorem storeHash_inputs (d : Str32) : (storeHash d s).inputs = s.inputs := rfl

/-! `popInput`. -/

@[simp] theorem popInput_cfg (es : List Event) : (popInput es s).cfg = s.cfg := rfl
@[simp] theorem popInput_ctrl (es : List Event) : (popInput es s).ctrl = s.ctrl := rfl
@[simp] theorem popInput_status (es : List Event) : (popInput es s).status = s.status := rfl
@[simp] theorem popInput_opnd (es : List Event) : (popInput es s).opnd = s.opnd := rfl
@[simp] theorem popInput_errAddr (es : List Event) : (popInput es s).errAddr = s.errAddr := rfl
@[simp] theorem popInput_nhd (es : List Event) : (popInput es s).nhd = s.nhd := rfl
@[simp] theorem popInput_pd (es : List Event) : (popInput es s).pd = s.pd := rfl
@[simp] theorem popInput_hd (es : List Event) : (popInput es s).hd = s.hd := rfl
@[simp] theorem popInput_fsm (es : List Event) : (popInput es s).fsm = s.fsm := rfl
@[simp] theorem popInput_lat (es : List Event) : (popInput es s).lat = s.lat := rfl
@[simp] theorem popInput_keyram (es : List Event) : (popInput es s).keyram = s.keyram := rfl
@[simp] theorem popInput_tpl (es : List Event) : (popInput es s).tpl = s.tpl := rfl
@[simp] theorem popInput_r (es : List Event) : (popInput es s).r = s.r := rfl
@[simp] theorem popInput_h (es : List Event) : (popInput es s).h = s.h := rfl
@[simp] theorem popInput_work (es : List Event) : (popInput es s).work = s.work := rfl
@[simp] theorem popInput_mem (es : List Event) : (popInput es s).mem = s.mem := rfl
@[simp] theorem popInput_xofPort (es : List Event) : (popInput es s).xofPort = s.xofPort := rfl
@[simp] theorem popInput_kmacPort (es : List Event) : (popInput es s).kmacPort = s.kmacPort := rfl
@[simp] theorem popInput_raced (es : List Event) : (popInput es s).raced = s.raced := rfl
@[simp] theorem popInput_draws (es : List Event) : (popInput es s).draws = s.draws := rfl
@[simp] theorem popInput_rdata (es : List Event) : (popInput es s).rdata = s.rdata := rfl
@[simp] theorem popInput_inputs (es : List Event) : (popInput es s).inputs = es := rfl

/-! `resetBlock` (R260, R263): the block's fields take their reset values, the rest stays. -/

@[simp] theorem resetBlock_cfg : (resetBlock s).cfg = s.cfg := rfl
@[simp] theorem resetBlock_ctrl : (resetBlock s).ctrl = State.reset.ctrl := rfl
@[simp] theorem resetBlock_status : (resetBlock s).status = State.reset.status := rfl
@[simp] theorem resetBlock_opnd : (resetBlock s).opnd = State.reset.opnd := rfl
@[simp] theorem resetBlock_errAddr : (resetBlock s).errAddr = State.reset.errAddr := rfl
@[simp] theorem resetBlock_nhd : (resetBlock s).nhd = State.reset.nhd := rfl
@[simp] theorem resetBlock_pd : (resetBlock s).pd = State.reset.pd := rfl
@[simp] theorem resetBlock_hd : (resetBlock s).hd = State.reset.hd := rfl
@[simp] theorem resetBlock_fsm : (resetBlock s).fsm = State.reset.fsm := rfl
@[simp] theorem resetBlock_lat : (resetBlock s).lat = State.reset.lat := rfl
@[simp] theorem resetBlock_keyram : (resetBlock s).keyram = State.reset.keyram := rfl
@[simp] theorem resetBlock_tpl : (resetBlock s).tpl = State.reset.tpl := rfl
@[simp] theorem resetBlock_r : (resetBlock s).r = State.reset.r := rfl
@[simp] theorem resetBlock_h : (resetBlock s).h = State.reset.h := rfl
@[simp] theorem resetBlock_work : (resetBlock s).work = State.reset.work := rfl
@[simp] theorem resetBlock_mem : (resetBlock s).mem = s.mem := rfl
@[simp] theorem resetBlock_xofPort : (resetBlock s).xofPort = s.xofPort := rfl
@[simp] theorem resetBlock_kmacPort : (resetBlock s).kmacPort = s.kmacPort := rfl
@[simp] theorem resetBlock_raced : (resetBlock s).raced = State.reset.raced := rfl
@[simp] theorem resetBlock_draws : (resetBlock s).draws = s.draws := rfl
@[simp] theorem resetBlock_rdata : (resetBlock s).rdata = s.rdata := rfl
@[simp] theorem resetBlock_inputs : (resetBlock s).inputs = s.inputs := rfl

@[simp] theorem complete_eq_finish : complete s = finish s := rfl

@[simp] theorem illegalCommand_eq : illegalCommand s = raiseError .illegalCmd 0 s := rfl

@[simp] theorem launchWord_eq (w : Word) : launchWord w s = { accept w s with inputs := .engine :: s.inputs } := rfl

end Sys2Proof.Machine
end

