-- ==== Sys2Proof/Laws/Step.lean ====
section
/-! SUPPORT. All that a step can do: inversion lemmas of the moves around the engine, each saying once what its operation answers. -/

namespace Sys2Proof.Machine

open Sys2Proof

variable {s t : State}

/-- A host write reaches an offset of the window or is refused. -/
theorem hostWrite_next {addr width : Nat} {v : Word} :
    hostWrite addr width v s = .next t ↔
      ∃ off, windowOffset s.cfg addr width = some off ∧ t = writeOffset off v s := by
  unfold hostWrite
  cases windowOffset s.cfg addr width <;> simp [eq_comm]

/-- A host read keeps the value read and changes nothing else. -/
theorem hostRead_next {addr width : Nat} :
    hostRead addr width s = .next t ↔
      ∃ off, windowOffset s.cfg addr width = some off ∧ t = { s with rdata := readOffset s off } := by
  unfold hostRead
  cases windowOffset s.cfg addr width <;> simp [eq_comm]

/-- The engine waits while idle, and else runs the latched word: its command, or the illegal completion. -/
theorem engineStep_next :
    engineStep s = .next t ↔
      (s.fsm = .idle ∧ t = s) ∨
      (s.fsm = .busy ∧ ∃ i, decode (commandWord s.lat) = .ok i ∧ exec i s = .next t) ∨
      (s.fsm = .busy ∧ (∃ r, decode (commandWord s.lat) = .error r) ∧ t = illegalCommand s) := by
  unfold engineStep
  cases s.fsm <;> cases decode (commandWord s.lat) <;> simp [eq_comm]

theorem engineStep_idle (h : s.fsm = .idle) : engineStep s = .next s := by simp [engineStep, h]

theorem engineStep_busy {i : Instr} (h : s.fsm = .busy) (hd : decode (commandWord s.lat) = .ok i) :
    engineStep s = exec i s := by simp [engineStep, h, hd]

/-- In a step that the engine and a host write share, a reset stands alone and any other write comes after the engine. -/
theorem engineThenWrite_next {addr width : Nat} {v : Word} :
    engineThenWrite addr width v s = .next t ↔
      (isSoftReset s.cfg addr width v = true ∧ hostWrite addr width v s = .next t) ∨
      (isSoftReset s.cfg addr width v = false ∧
        ∃ u, engineStep s = .next u ∧ hostWrite addr width v u = .next t) := by
  unfold engineThenWrite
  cases isSoftReset s.cfg addr width v <;> cases engineStep s <;> simp

/-- The next move: the first input, or the engine when none waits. -/
theorem step_next :
    step s = .next t ↔
      (s.inputs = [] ∧ engineStep s = .next t) ∨
      ∃ e es, s.inputs = e :: es ∧ runEvent e (popInput es s) = .next t := by
  unfold step runNext
  cases s.inputs <;> simp

end Sys2Proof.Machine
end

