-- ==== Sys2Proof/Tests/Slice0.lean ====
section
/-! SUPPORT. Tests of single steps against spec/95_test_vectors.md and spec/30_encoding.md, and a concrete state that meets the
hypotheses of each statement that has some. -/

namespace Sys2Proof.Tests

open Sys2Proof Sys2Proof.Machine

-- One test after the other: side by side, the threads of so many kernel evaluations ask for more memory than the check gives.
set_option Elab.async false

/-! ## Small states -/

/-- Host memory that holds these bytes from an address on. -/
def cells : Nat → Bytes → Memory
  | _, [] => []
  | a, b :: bs => (a, b) :: cells (a + 1) bs

/-- The first `n` bytes of the test message `TM` and of the test key `TK` (§2), for `n ≤ 251`. -/
def counting (n : Nat) : Bytes := (List.range n).map fun i => BitVec.ofNat 8 i

/-- A key store that begins with the first 160 bytes of `TK`, enough for `NH` on three units. -/
def testKey : DerivedKey := packBytes 33152 (counting 160)

/-- An idle block with the test key, a template and a fresh accumulator, and `TM(48)` in memory at 0x3000. -/
def ready : State :=
  { State.reset with
    status := ⟨false, false, false, true, true, true, false, .none, 0⟩
    keyram := testKey
    tpl := ⟨kmacKey testKey, []⟩
    r := clamp (polyKey testKey)
    mem := cells 0x3000 (counting 48) }

/-- An idle block whose command operands are a source range and a context range. -/
def operands (a n c m : Nat) (s : State) : State :=
  { s with opnd := ⟨BitVec.ofNat 32 a, BitVec.ofNat 32 (a / 2 ^ 32), BitVec.ofNat 32 n, BitVec.ofNat 32 (n / 2 ^ 32),
      BitVec.ofNat 32 c, BitVec.ofNat 32 (c / 2 ^ 32), BitVec.ofNat 32 m⟩ }

/-- A command accepted, so that it runs next. -/
def running (i : Instr) (s : State) : State := accept (encode i) s

/-- The state a command answers. -/
def after (i : Instr) (s : State) : State :=
  match exec i (running i s) with
  | .next t => t
  | .fault _ | .refused _ => s

/-- The command answers a next state. -/
def runs (i : Instr) (s : State) : Bool :=
  match exec i s with
  | .next _ => true
  | .fault _ | .refused _ => false

theorem runs_next {i : Instr} {s : State} (h : runs i s = true) : ∃ t, exec i s = .next t := by
  unfold runs at h
  cases he : exec i s with
  | next t => exact ⟨t, rfl⟩
  | fault _ | refused _ => rw [he] at h; cases h

/-- `STATUS` after a command. -/
def statusAfter (i : Instr) (s : State) : Word := readOffset (after i s) 0x00C

/-! ## Well-formed terms -/

theorem test_nh_256_is_not_well_formed : (Instr.nh 256).wellFormed = false := by decide
theorem test_nh_65_is_well_formed : (Instr.nh 65).wellFormed = true := by decide

/-! ## Decoding: words written out from the fields of R80, `RSV ‖ ARG ‖ OP` -/

theorem test_decode_control : decode 0b00000000000000000000000000000000 = .ok .nop := by decide
theorem test_decode_key :
    decode 0b00000000000000000000000000000001 = .ok .kdf ∧
    decode 0b00000000000000000000000000000010 = .ok .keyload ∧
    decode 0b00000000000000000000000000000011 = .ok .tplInit := by decide
theorem test_decode_nh :
    decode 0b00000000000000000000000100010000 = .ok (.nh 1) ∧
    decode 0b00000000000000000100000000010000 = .ok (.nh 64) ∧
    decode 0b00000000000000001111111100010000 = .ok (.nh 255) := by decide
theorem test_decode_poly :
    decode 0b00000000000000000000000000100000 = .ok .polyInit ∧
    decode 0b00000000000000000000000000100001 = .ok .polyUpd ∧
    decode 0b00000000000000000000000000100010 = .ok .polyUpdnh ∧
    decode 0b00000000000000000000000000100011 = .ok .polyFin := by decide
theorem test_decode_combine : decode 0b00000000000000000000000000110000 = .ok .combine := by decide
theorem test_decode_hash : decode 0b00000000000000000000000000110001 = .ok .hash := by decide
theorem test_decode_illegal :
    decode 0x00000004 = .error .reservedOp ∧ decode 0x00000120 = .error .argument ∧
    decode 0x00010010 = .error .reservedBits := by decide
theorem test_decode_table_word : decodeTableWord 32 0x00004010 = some (.nh 64) ∧ decodeTableWord 8 0x31 = some .hash := by
  decide

/-! ## Each command on one step (§2 to §7) -/

theorem test_nop_status : statusAfter .nop State.reset = 0x00000002 := by decide +kernel
theorem test_kdf_short_seed : statusAfter .kdf (operands 0x3000 15 0 0 State.reset) = 0x00010206 := by decide +kernel
theorem test_kdf_context_range_first :
    let t := after .kdf (operands 0xFFFFFFFFFFFFFFF0 32 0xFFFFFFFFFFFFFFF8 9 State.reset)
    t.status.errCode = .addrRange ∧ t.errAddr = 0xFFFFFFFFFFFFFFF8 := by decide +kernel
theorem test_keyload_length :
    (after .keyload (operands 0x3000 4143 0 0 ready)).status.errCode = .invalidKeyLength ∧
    (after .keyload (operands 0x3000 4145 0 0 ready)).status.keyValid = true := by decide +kernel
theorem test_keyload_fault :
    let t := after .keyload (operands 0x3000 4144 0 0 { ready with mem := cells 0x3000 (counting 100) })
    t.status.errCode = .memFault ∧ t.errAddr = 0x3064 ∧ t.status.keyValid = false ∧ t.status.polyValid = false := by
  decide +kernel
theorem test_tpl_init_pair :
    let t := after .tplInit { ready with tpl := ⟨0, [1]⟩ }
    unpackBytes t.tpl.tk 0 32 = counting 32 ∧ t.tpl.tc = [] := by decide +kernel
theorem test_tpl_init_needs_key : statusAfter .tplInit State.reset = 0x00030406 := by decide +kernel
theorem test_nh_vector_nh8 :
    let t := after (.nh 3) (operands 0x3000 0 0 0 ready)
    t.nhd = 0x0675262dd9fb7a409e267297abb3974041efe331a183c040f1d177fbbb6bf540 := by decide +kernel
theorem test_nh_range :
    let t := after (.nh 64) (operands 0xFFFFFFFFFFFFFC01 0 0 0 ready)
    t.status.errCode = .addrRange ∧ t.errAddr = 0xFFFFFFFFFFFFFC01 := by decide +kernel
theorem test_poly_init_clamps :
    (after .polyInit { ready with r := 0, h := 7 }).r = 0x0f2e2d2c0b2a29280726252403222120 ∧
    (after .polyInit { ready with r := 0, h := 7 }).h = 0 := by decide +kernel
theorem test_poly_upd_vector_p8 :
    let t := after .polyUpd (operands 0x3000 32 0 0 ready)
    finalize t.h = 0xcc43d4a9dab9481c24dab2aa88ebb954 := by decide +kernel
theorem test_poly_upd_length : statusAfter .polyUpd (operands 0x3000 17 0 0 ready) = 0x00210776 := by decide +kernel
theorem test_poly_updnh_vector_c16 :
    let t := after .polyUpdnh
      { ready with nhd := 0x65efe6507b213ac04b3b17e92e6ea1c0348e5591edc40cc021e99f4ab9217bc0 }
    finalize t.h = 0xdca24b295f736a05bb5cc6408423ee5c := by decide +kernel
theorem test_poly_fin_truncates :
    (after .polyFin { ready with h := 1361129467683753853853498429727072845818 }).pd =
      0xfffffffffffffffffffffffffffffffa := by decide +kernel
theorem test_poly_fin_needs_acc : statusAfter .polyFin State.reset = 0x00230606 := by decide +kernel
theorem test_combine_vector_c17 :
    (after .combine (operands 0x3000 17 0 0 ready)).pd = 0xae70dfd6ab3d441338fa8f121d1eb69b := by decide +kernel
theorem test_combine_empty :
    (after .combine (operands 0 0 0 0 { ready with pd := 5 })).pd = 0 := by decide +kernel
theorem test_hash_writes_poly_digest :
    let t := after .hash (operands 0x3000 17 0 0 ready)
    t.pd = 0xae70dfd6ab3d441338fa8f121d1eb69b ∧ readOffset t 0x00C = 0x00310072 := by decide +kernel
theorem test_hash_needs_template :
    statusAfter .hash { ready with status := ⟨false, false, false, true, false, false, false, .none, 0⟩ } = 0x00310516 := by
  decide +kernel

/-! ## The window -/

theorem test_caps_default : readOffset State.reset 0x004 = 0x00401001 := by decide
theorem test_ctrl_without_vector :
    let s : State := { State.reset with cfg := { Config.default with vecPresent := false } }
    readOffset (writeOffset 0x008 0x00000007 s) 0x008 = 0x00000006 := by decide +kernel

/-! ## Witnesses: states and operands that meet the hypotheses of the statements, one theorem a statement -/

/-- `n` zero bytes from an address on. -/
def zeros : Nat → Nat → Memory
  | _, 0 => []
  | a, n + 1 => (a, 0) :: zeros (a + 1) n

theorem zeros_get (a n x : Nat) (h : a ≤ x) (h' : x < a + n) : (zeros a n).get x = some 0 := by
  induction n generalizing a with
  | zero => omega
  | succ n ih =>
    simp only [zeros, Memory.get]
    split
    · rfl
    · exact ih (a + 1) (by omega) (by omega)

/-- A read of zero bytes that nothing marks and nobody races for. -/
theorem zeros_read (s : State) (slot : Slot) (a n : Nat) (hs : s.cfg.marks = []) (hr : s.raced = [])
    (h : ∀ x, a ≤ x → x < a + n → s.mem.get x = some 0) : memRead s slot a n = .data (List.replicate n 0) := by
  unfold memRead
  induction n generalizing a with
  | zero => rfl
  | succ n ih =>
    have h0 : busByte s slot a = .data 0 := by simp [busByte, isSilent, hs, h a (le_refl a) (by omega), hr]
    rw [readBytes_succ, h0, Got.bind_data, ih (a + 1) fun x h1 h2 => h x (by omega) (by omega)]
    rfl

/-- A running `KEYLOAD` of 4144 zero bytes. -/
def loading : State := running .keyload (operands 0x3000 4144 0 0 { ready with mem := zeros 0x3000 4144 })

theorem loading_bytes : SrcBytes .keyload loading (List.replicate 4144 0) :=
  zeros_read loading .src 0x3000 4144 rfl rfl fun x h h' => zeros_get 0x3000 4144 x h h'

/-- A running command on the 48 bytes at 0x3000, with 3 bytes of personalization there. -/
def onBytes (i : Instr) : State := running i (operands 0x3000 48 0x3000 3 ready)

/-- The same on an instance that binds the personalization at `TPL_INIT`. -/
def onBytesMac (i : Instr) : State :=
  running i (operands 0x3000 48 0x3000 3 { ready with cfg := { Config.default with persBind := .mac } })

/-- The same with a byte past the 48 listed ones as the last of the source. -/
def onFault (i : Instr) : State := running i (operands 0x3000 64 0x3000 3 ready)

/-- The same with ports that signal errors. -/
def onErr (i : Instr) : State :=
  running i (operands 0x3000 48 0x3000 3
    { ready with cfg := { Config.default with primMayFault := true }, xofPort := .errs, kmacPort := .errs })

/-- The same with silent ports. -/
def onSilent (i : Instr) : State :=
  running i (operands 0x3000 48 0x3000 3 { ready with xofPort := .silent, kmacPort := .silent })

/-- The same with one marked address, the last one of the source range. -/
def onMark (k : MarkKind) (i : Instr) : State :=
  running i (operands 0x3000 48 0x3000 3 { ready with cfg := { Config.default with marks := [⟨0x302F, 1, k⟩] } })

theorem test_witness_DecodeOfEncodeIsTheCommand :
    Instr.wellFormed (.nh 0) = true ∧ Instr.wellFormed (.nh 255) = true ∧ Instr.wellFormed .hash = true := by decide
theorem test_witness_EncodeOfDecodeIsTheWord : decode 0x0000FF10 = .ok (.nh 255) ∧ decode 0x00000031 = .ok .hash := by
  decide
theorem test_witness_ListedWordsDecode : ready.status.keyValid = true := rfl
theorem test_witness_IllegalWordsCompleteWithIllegalCmd :
    State.reset.fsm = .idle ∧ (∃ r, decode 0x80000000 = .error r) ∧ (∃ r, decode 0x000000FF = .error r) ∧
    (∃ r, decode 0x00000131 = .error r) := ⟨rfl, ⟨_, rfl⟩, ⟨_, rfl⟩, ⟨_, rfl⟩⟩
theorem test_witness_StepRunsTheDecodedCommand :
    (onBytes .hash).fsm = .busy ∧ decode (commandWord (onBytes .hash).lat) = .ok .hash ∧ (onBytes .hash).inputs = [] ∧
    ({ onBytes .hash with inputs := [.engine] } : State).inputs = [.engine] ∧ Instr.hash.wellFormed = true := by decide +kernel
theorem test_witness_AcceptanceLatchesTheOperands :
    ready.fsm = .idle ∧ (0x7FFFFFFF : Word).getLsbD 31 = false ∧
    (∃ t, hostWrite 0x018 32 7 ready = .next t ∧ readOffset t 0x018 = 7) ∧
    (∃ t, hostWrite 0x030 32 7 (onBytes .nop) = .next t ∧ readOffset t 0x030 = 7 ∧ readOffset t 0x02C = 0) :=
  ⟨rfl, by decide, ⟨_, rfl, rfl⟩, ⟨_, rfl, rfl, by decide +kernel⟩⟩
theorem test_witness_CommandWhileBusyIsDropped :
    let s := { onBytes .nop with status := { (onBytes .nop).status with ovr := true } }
    s.fsm = .busy ∧ s.status.ovr = true ∧
    (∃ t, runEvent .hwReset s = .next t ∧ t.status.ovr = false) ∧
    (∃ t, runEvent (.write 0x00C 32 0x8) s = .next t ∧ t.status.ovr = false) ∧
    (∃ t, runEvent (.engineWrite 0x00C 32 0x8) s = .next t ∧ t.status.ovr = false) ∧
    (∃ t, runEvent (.write 0x008 32 0x80000000) s = .next t ∧ t.status.ovr = false) :=
  ⟨rfl, rfl, ⟨_, rfl, rfl⟩, ⟨_, rfl, rfl⟩, ⟨_, rfl, rfl⟩, ⟨_, rfl, rfl⟩⟩
theorem test_witness_SameStepEventsAreOrdered :
    (0x80000000 : Word).getLsbD 31 = true ∧ ∃ t, engineStep (onBytes .nop) = .next t ∧ t.fsm = .idle := ⟨rfl, _, rfl, rfl⟩
theorem test_witness_RegisterMapAgrees : regAt 0x000 = some .id ∧ regAt 0x09C = some (.hashOut 7) := ⟨rfl, rfl⟩
theorem test_witness_IdentityRegistersAreConstant : State.reset.cfg.wf ∧ State.reset.cfg = Config.default := by decide
theorem test_witness_StatusWriteClearsThreeBits :
    ∃ t, engineStep (onBytes .nop) = .next t ∧ t.cfg = (onBytes .nop).cfg := ⟨_, rfl, rfl⟩
theorem test_witness_CtrlWriteStoresThreeBits :
    (0x7FFFFFFF : Word).getLsbD 31 = false ∧ (0x80000000 : Word).getLsbD 31 = true := by decide
theorem test_witness_SoftResetClearsTheBlock : (0xFFFFFFFF : Word).getLsbD 31 = true := by decide
theorem test_witness_ReservedPlacesReadZero :
    readOffset ready 0x014 = 0 ∧ readOffset ready 0x034 = 0 ∧ readOffset ready 0x070 = 0 ∧ readOffset ready 0x07C = 0 ∧
    readOffset ready 0x0A0 = 0 ∧ readOffset ready 0x0FC = 0 ∧
    (readOffset ready 0x004).getLsbD 3 = false ∧ (readOffset ready 0x004).getLsbD 7 = false ∧
    (readOffset ready 0x008).getLsbD 3 = false ∧ (readOffset ready 0x00C).getLsbD 12 = false ∧
    (readOffset ready 0x00C).getLsbD 15 = false ∧ (readOffset ready 0x00C).getLsbD 24 = false ∧
    ((0x7FFFFFF8 : Word).getLsbD 0 = (0 : Word).getLsbD 0 ∧ (0x7FFFFFF8 : Word).getLsbD 31 = (0 : Word).getLsbD 31) ∧
    ((0xFFFFFFF1 : Word).getLsbD 1 = (0 : Word).getLsbD 1 ∧ (0xFFFFFFF1 : Word).getLsbD 3 = (0 : Word).getLsbD 3) := by
  decide +kernel
theorem test_witness_OddAccessesAreRefused :
    hostRead 0x0FF 32 ready = .refused (.badRegisterAccess 0x0FF 32) ∧
    hostWrite 0x000 8 1 ready = .refused (.badRegisterAccess 0x000 8) ∧
    hostRead 0x0FC 32 ready = .next { ready with rdata := 0 } := ⟨rfl, rfl, rfl⟩
theorem test_witness_ResultRegistersShowTheirBytes :
    readOffset { ready with hd := 0x0807060504030201 } 0x084 = 0x08070605 ∧
    readOffset { ready with pd := 0x0F0E0D0C0B0A09080706050403020100 } 0x06C = 0x0F0E0D0C ∧
    readOffset { ready with errAddr := 0x0807060504030201 } 0x03C = 0x08070605 := by decide +kernel
theorem test_witness_InterruptFollowsStatusAndEnables :
    (0x00000006 : Word).getLsbD 1 = true ∧ (0x00000006 : Word).getLsbD 2 = true ∧ ready.fsm = .idle := by decide +kernel
theorem test_witness_MemReadGivesBytesOrLowestFault :
    memRead ready .src 0x302E 2 = .data [0x2E, 0x2F] ∧ memRead ready .src 0x302E 3 = .fault 0x3030 := by decide +kernel
theorem test_witness_HostStoreChangesOneByte :
    (∃ t, runEvent (.store 0x3000 7) ready = .next t) ∧ (∃ t, runEvent (.store 0xFFFFFFFFFFFFFFFF 7) ready = .next t) ∧
    ready.mem.wf := ⟨⟨_, rfl⟩, ⟨_, rfl⟩, by decide +kernel⟩
theorem test_witness_RacingByteIsADraw :
    (onBytes .nop).fsm = .busy ∧ (∃ t, runEvent (.store 0x3000 7) (onBytes .nop) = .next t) ∧
    isSilent (onBytes .nop) 0x3000 = false := ⟨rfl, ⟨_, rfl⟩, rfl⟩
theorem test_witness_FirstFailedCheckIsReported :
    let found := fun (i : Instr) (s : State) => (firstFailed i (running i s)).map fun c => (c.code, c.addr)
    found .hash State.reset = some (.keyNotValid, 0) ∧
    found .hash { ready with status := ⟨false, false, false, true, false, false, false, .none, 0⟩ } =
      some (.tplNotValid, 0) ∧
    found .polyFin State.reset = some (.polyNotValid, 0) ∧
    found (.nh 65) ready = some (.badLength, 0) ∧
    found .kdf (operands 0 16 0xFFFFFFFFFFFFFFFF 2 ready) = some (.addrRange, 0xFFFFFFFFFFFFFFFF) ∧
    found (.nh 64) (operands 0xFFFFFFFFFFFFFC01 0 0 0 ready) = some (.addrRange, 0xFFFFFFFFFFFFFC01) := by decide +kernel
theorem test_witness_PassingChecksGiveNoCheckError :
    ChecksPass (.nh 64) (running (.nh 64) (operands 0xFFFFFFFFFFFFFC00 0 0 0 ready)) ∧ ChecksPass .nop (onBytes .nop) ∧
    (onBytes .nop).status.err = false ∧ (onBytes .nop).status.errCode = .none ∧
    (∃ t, exec .nop (onBytes .nop) = .next t) ∧
    (ChecksPass .polyUpd (onFault .polyUpd) ∧ (onFault .polyUpd).status.err = false ∧
      (onFault .polyUpd).status.errCode = .none ∧ ∃ t, exec .polyUpd (onFault .polyUpd) = .next t) :=
  ⟨by decide +kernel, by decide +kernel, rfl, rfl, ⟨_, rfl⟩, by decide +kernel, rfl, rfl, runs_next (by decide +kernel)⟩
theorem test_witness_KdfStoresTheXofOutput :
    (ChecksPass .kdf (onBytes .kdf) ∧ LaunchAllowed .kdf (onBytes .kdf) ∧ CtxBytes .kdf (onBytes .kdf) (counting 3) ∧
      SrcBytes .kdf (onBytes .kdf) (counting 48) ∧ PortAnswers (onBytes .kdf) (onBytes .kdf).xofPort ∧
      (onBytes .kdf).cfg.persBind = .kdf) ∧
    (ChecksPass .kdf (onBytesMac .kdf) ∧ LaunchAllowed .kdf (onBytesMac .kdf) ∧ CtxBytes .kdf (onBytesMac .kdf) [] ∧
      SrcBytes .kdf (onBytesMac .kdf) (counting 48) ∧ PortAnswers (onBytesMac .kdf) (onBytesMac .kdf).xofPort ∧
      (onBytesMac .kdf).cfg.persBind = .mac) := by decide +kernel
theorem test_witness_KeyloadStoresTheBytes :
    (ChecksPass .keyload loading ∧ LaunchAllowed .keyload loading) ∧
    SrcBytes .keyload loading (List.replicate 4144 0) :=
  ⟨by decide +kernel, loading_bytes⟩
theorem test_witness_TplInitStoresTheTemplate :
    (ChecksPass .tplInit (onBytes .tplInit) ∧ LaunchAllowed .tplInit (onBytes .tplInit) ∧
      CtxBytes .tplInit (onBytes .tplInit) [] ∧ PortAnswers (onBytes .tplInit) (onBytes .tplInit).kmacPort) ∧
    (ChecksPass .tplInit (onBytesMac .tplInit) ∧ LaunchAllowed .tplInit (onBytesMac .tplInit) ∧
      CtxBytes .tplInit (onBytesMac .tplInit) (counting 3) ∧
      PortAnswers (onBytesMac .tplInit) (onBytesMac .tplInit).kmacPort) := by decide +kernel
theorem test_witness_NhSumsFollowTheFormula : (counting 48).length = 16 * 3 ∧ (0 : Nat) < 4 ∧ (3 : Nat) < 4 := by decide
theorem test_witness_NhWritesTheDigest :
    ChecksPass (.nh 3) (onBytes (.nh 3)) ∧ LaunchAllowed (.nh 3) (onBytes (.nh 3)) ∧
    SrcBytes (.nh 3) (onBytes (.nh 3)) (counting 48) := by decide +kernel
theorem test_witness_PolyInitClampsTheKey : ready.status.keyValid = true ∧ State.reset.status.keyValid = false := ⟨rfl, rfl⟩
theorem test_witness_PolyUpdFoldsTheBytes :
    ChecksPass .polyUpd (onBytes .polyUpd) ∧ LaunchAllowed .polyUpd (onBytes .polyUpd) ∧
    SrcBytes .polyUpd (onBytes .polyUpd) (counting 48) := by decide +kernel
theorem test_witness_PolyUpdnhFoldsTheNhDigest :
    ready.status.polyValid = true ∧ State.reset.status.polyValid = false := ⟨rfl, rfl⟩
theorem test_witness_PolyFinWritesTheLowBits :
    ready.status.polyValid = true ∧ State.reset.status.polyValid = false := ⟨rfl, rfl⟩
theorem test_witness_CombineWritesThePolyDigest :
    (onBytes .combine).cfg.wf ∧ ChecksPass .combine (onBytes .combine) ∧ LaunchAllowed .combine (onBytes .combine) ∧
    SrcBytes .combine (onBytes .combine) (counting 48) := by decide +kernel
theorem test_witness_HashWritesTheKmacOfLengthAndDigest :
    (onBytes .hash).cfg.wf ∧ ChecksPass .hash (onBytes .hash) ∧ LaunchAllowed .hash (onBytes .hash) ∧
    SrcBytes .hash (onBytes .hash) (counting 48) ∧ PortAnswers (onBytes .hash) (onBytes .hash).kmacPort := by decide +kernel
theorem test_witness_KeyCommandFaultsInvalidateEverything :
    let c := running .kdf (operands 0x3000 48 0x302F 2 ready)
    (ChecksPass .kdf c ∧ LaunchAllowed .kdf c ∧ CtxFault .kdf c 0x3030) ∧
    (ChecksPass .kdf (onFault .kdf) ∧ LaunchAllowed .kdf (onFault .kdf) ∧
      CtxBytes .kdf (onFault .kdf) (counting 3) ∧ SrcFault .kdf (onFault .kdf) 0x3030) ∧
    (ChecksPass .kdf (onErr .kdf) ∧ LaunchAllowed .kdf (onErr .kdf) ∧ CtxBytes .kdf (onErr .kdf) (counting 3) ∧
      SrcBytes .kdf (onErr .kdf) (counting 48) ∧ PortErrs (onErr .kdf) (onErr .kdf).xofPort) ∧
    (let k := running .keyload (operands 0x3000 4144 0 0 ready)
     ChecksPass .keyload k ∧ LaunchAllowed .keyload k ∧ CtxBytes .keyload k [] ∧ SrcFault .keyload k 0x3030) := by
  decide +kernel
theorem test_witness_TplInitFaultsKeepOrDropTheTemplate :
    (let c := running .tplInit (operands 0 0 0x302F 2 { ready with cfg := { Config.default with persBind := .mac } })
     ChecksPass .tplInit c ∧ LaunchAllowed .tplInit c ∧ CtxFault .tplInit c 0x3030) ∧
    (ChecksPass .tplInit (onErr .tplInit) ∧ LaunchAllowed .tplInit (onErr .tplInit) ∧
      CtxBytes .tplInit (onErr .tplInit) [] ∧ PortErrs (onErr .tplInit) (onErr .tplInit).kmacPort) := by decide +kernel
theorem test_witness_NhAndPolyUpdFaults :
    (ChecksPass (.nh 4) (onFault (.nh 4)) ∧ LaunchAllowed (.nh 4) (onFault (.nh 4)) ∧
      SrcFault (.nh 4) (onFault (.nh 4)) 0x3030) ∧
    (ChecksPass .polyUpd (onFault .polyUpd) ∧ LaunchAllowed .polyUpd (onFault .polyUpd) ∧
      SrcFault .polyUpd (onFault .polyUpd) 0x3030) := by decide +kernel
theorem test_witness_CombineAndHashFaultsDropTheAccumulator :
    (onFault .combine).cfg.wf ∧
    (ChecksPass .combine (onFault .combine) ∧ LaunchAllowed .combine (onFault .combine) ∧
      SrcFault .combine (onFault .combine) 0x3030) ∧
    (ChecksPass .hash (onErr .hash) ∧ LaunchAllowed .hash (onErr .hash) ∧ SrcBytes .hash (onErr .hash) (counting 48) ∧
      PortErrs (onErr .hash) (onErr .hash).kmacPort) := by decide +kernel
theorem test_witness_UnansweredCommandKeepsRunning :
    (let c := running .kdf (operands 0x3000 48 0x302F 1
       { ready with cfg := { Config.default with marks := [⟨0x302F, 1, .silent⟩] } })
     ChecksPass .kdf c ∧ LaunchAllowed .kdf c ∧ memRead c .ctx (latCtx c) (ctxReadLen c .kdf) = .silent) ∧
    (let c := onMark .silent .combine
     ChecksPass .combine c ∧ LaunchAllowed .combine c ∧ CtxBytes .combine c [] ∧
       memRead c .src (latSrc c) (srcReadLen c .combine) = .silent) ∧
    (let c := onSilent .kdf
     ChecksPass .kdf c ∧ LaunchAllowed .kdf c ∧ CtxBytes .kdf c (counting 3) ∧ SrcBytes .kdf c (counting 48) ∧
       c.xofPort = .silent) ∧
    (let c := onSilent .hash
     ChecksPass .hash c ∧ LaunchAllowed .hash c ∧ CtxBytes .hash c [] ∧ SrcBytes .hash c (counting 48) ∧
       c.kmacPort = .silent) := by decide +kernel
theorem test_witness_ReadSideEffectsAreRefused :
    ChecksPass .combine (onMark .readEffect .combine) ∧ ¬ LaunchAllowed .combine (onMark .readEffect .combine) := by
  decide +kernel
theorem test_witness_VectorDatapathEqualsScalar :
    (onBytes (.nh 3)).fsm = .busy ∧ (after (.nh 3) ready).fsm = .idle ∧
    ∃ t, exec .nop (onBytes .nop) = .next t ∧ t.fsm = .idle := ⟨rfl, by decide +kernel, _, rfl, rfl⟩
theorem test_witness_NhReadsOnlyItsKeyWords :
    let k : DerivedKey := 0
    let k' : DerivedKey := 2 ^ (8 * (48 + 4 * 24))
    k ≠ k' ∧ ∀ w < 4 * ((counting 48).length / 16) + 12, nhKey k w = nhKey k' w := by decide +kernel
theorem test_witness_FoldIsSequential : (counting 16).length = 16 ∧ (counting 48).length % 16 = 0 := by decide
theorem test_witness_FoldSpecialCases :
    (∃ h : Fin polyP, h.val = 2 ^ 129) ∧
    (∃ (h : Fin polyP) (c : Bytes), c.length = 16 ∧ h.val + leNat c + 2 ^ 128 = 2 ^ 130 - 5) ∧
    (∃ (h : Fin polyP) (c : Bytes), c.length = 16 ∧ h.val + leNat c + 2 ^ 128 = 2 ^ 130 - 2) :=
  ⟨⟨⟨2 ^ 129, by decide⟩, rfl⟩,
   ⟨⟨2 ^ 129 - 1, by decide⟩, 0xFC :: List.replicate 15 0xFF, by decide +kernel⟩,
   ⟨⟨2 ^ 129 - 1, by decide⟩, List.replicate 16 0xFF, by decide +kernel⟩⟩
theorem test_witness_BatchSizeDoesNotMatter : (1 : Nat) ≤ 1 ∧ (1 : Nat) ≤ 16 ∧ (16 : Nat) ≤ 16 := by decide
theorem test_witness_PaddingHidesTrailingZeros :
    let m := counting 1
    0 < m.length % 1024 ∧ m.length % 1024 % 16 ≠ 0 ∧ (15 : Nat) ≤ 15 - (m.length % 1024 - 1) % 16 ∧ m.length + 15 < 2 ^ 64 := by
  decide
theorem test_witness_EngineChangesNothingOutside : ∃ t, exec .hash (running .hash State.reset) = .next t := ⟨_, rfl⟩
theorem loading_runs (s : State) (k : Bytes) (hc : ChecksPass .keyload s) (hl : LaunchAllowed .keyload s)
    (h : memRead s .src (latSrc s) (latLen s) = .data k) :
    exec .keyload s = .next (complete (storeKey (packBytes 33152 k) s)) := by
  rw [exec_pass hc hl]
  simp only [execBody, h, onRead]

theorem packed_zeros (n : Nat) : packBytes 33152 (List.replicate n 0) = 0 := by
  have hz (n : Nat) : leNat (List.replicate n 0) = 0 := by
    induction n with
    | zero => rfl
    | succ n ih => rw [List.replicate_succ, leNat, ih]; rfl
  rw [packBytes, hz]
  rfl

theorem keyload_cfg {s t : State} (h : exec .keyload s = .next t) : t.cfg = s.cfg := by
  rcases exec_next.mp h with ⟨c, -, rfl⟩ | ⟨-, -, h⟩
  · rfl
  · rcases onRead_next.mp h with ⟨k, -, hk⟩ | ⟨f, -, rfl⟩ | ⟨-, rfl⟩
    · cases hk
      rfl
    · rfl
    · rfl

theorem engineWrite_reserved {s t : State} (hs : isSoftReset s.cfg 0x014 32 0 = false) (h : engineStep s = .next t)
    (hw : windowOffset t.cfg 0x014 32 = some 0x014) : runEvent (.engineWrite 0x014 32 0) s = .next t := by
  have hn : writeOffset 0x014 0 t = t := by simp [writeOffset, regAt]
  exact engineThenWrite_next.mpr (.inr ⟨hs, t, h, hostWrite_next.mpr ⟨0x014, hw, hn.symm⟩⟩)

theorem loading_changes : ∃ t, exec .keyload loading = .next t ∧ t.keyram ≠ loading.keyram := by
  have hn : latLen loading = srcReadLen loading .keyload := by decide +kernel
  refine ⟨_, loading_runs loading _ (by decide +kernel) (by decide +kernel) (by rw [hn]; exact loading_bytes), ?_⟩
  rw [packed_zeros]
  show (0 : DerivedKey) ≠ testKey
  decide +kernel

theorem test_witness_OnlyKeyCommandsChangeTheKeyStore :
    (∃ t, runEvent .hwReset ready = .next t ∧ t.keyram ≠ ready.keyram) ∧
    (∃ t, runEvent (.write 0x008 32 0x80000000) ready = .next t ∧ t.keyram ≠ ready.keyram) ∧
    (∃ t, exec .keyload loading = .next t ∧ t.keyram ≠ loading.keyram) ∧
    (∃ t, runEvent .engine loading = .next t ∧ t.keyram ≠ loading.keyram) ∧
    (∃ t, runEvent (.engineWrite 0x014 32 0) loading = .next t ∧ t.keyram ≠ loading.keyram) := by
  have hb : loading.fsm = .busy := by decide +kernel
  have hd : decode (commandWord loading.lat) = .ok .keyload := by decide +kernel
  have he : engineStep loading = exec .keyload loading := engineStep_busy hb hd
  refine ⟨⟨_, rfl, ?_⟩, ⟨_, rfl, ?_⟩, loading_changes, ?_, ?_⟩
  · show (0 : DerivedKey) ≠ testKey
    decide +kernel
  · show (0 : DerivedKey) ≠ testKey
    decide +kernel
  · rw [runEvent, he]
    exact loading_changes
  · obtain ⟨t, ht, hk⟩ := loading_changes
    have hw : windowOffset t.cfg 0x014 32 = some 0x014 := by
      rw [keyload_cfg ht]
      decide +kernel
    exact ⟨t, engineWrite_reserved (by decide +kernel) (he.trans ht) hw, hk⟩
theorem test_witness_ResultsChangeOnlyAtCompletionOrReset :
    let s := { ready with pd := 5 }
    (∃ t, runEvent .hwReset s = .next t ∧ ¬ SameResults s t) ∧
    (∃ t, runEvent (.write 0x008 32 0x80000000) s = .next t ∧ ¬ SameResults s t) ∧
    (∃ t, runEvent .engine (running .polyFin s) = .next t ∧ ¬ SameResults (running .polyFin s) t) :=
  ⟨⟨_, rfl, by decide +kernel⟩, ⟨_, rfl, by decide +kernel⟩, ⟨_, rfl, by decide +kernel⟩⟩
theorem test_witness_CommandsReadOnlyTheirRanges :
    let s := onBytes (.nh 1)
    let m := cells 0x3000 (counting 16)
    m ≠ s.mem ∧ (∀ x < 16, m.get (0x3000 + x) = s.mem.get (0x3000 + x)) ∧ latSrc s = 0x3000 ∧
    srcReadLen s (.nh 1) = 16 ∧ ctxReadLen s (.nh 1) = 0 ∧ (∃ t, exec (.nh 1) s = .next t) :=
  ⟨by decide +kernel, by decide +kernel, rfl, rfl, rfl, runs_next (by decide +kernel)⟩
theorem test_witness_EveryRunningCommandCompletes :
    (onBytes .hash).fsm = .busy ∧ (onBytes .hash).cfg.marks = [] ∧ (onBytes .hash).xofPort ≠ .silent ∧
    (onErr .hash).kmacPort ≠ .silent := by decide +kernel
theorem test_witness_StepKeepsTheInvariant :
    Inv ready ∧ Inv (onBytes .nop) ∧ (∃ t, step ready = .next t) ∧ ∃ t, step (onBytes .nop) = .next t :=
  ⟨by decide +kernel, by decide +kernel, ⟨_, rfl⟩, ⟨_, rfl⟩⟩

end Sys2Proof.Tests
end

section
/-! PROOFS of the family 10_state.md: the register window, and when the result registers change. -/

namespace Sys2Proof.Machine

open Sys2Proof

variable {s t : State}

/-! ## The register window (R21 to R23) -/

/-- The register at an offset has that offset (R21). -/
theorem regOffset_of_regAt {off : Nat} {g : Reg} (h : regAt off = some g) : regOffset g = off := by
  unfold regAt at h
  split at h <;> cases h <;> rfl

theorem regAt_eq_none_of_reserved {off : Nat}
    (hoff : off = 0x014 ∨ off = 0x034 ∨ (0x070 ≤ off ∧ off ≤ 0x07C) ∨ (0x0A0 ≤ off ∧ off ≤ 0x0FC)) :
    regAt off = none := by
  cases h : regAt off with
  | none => rfl
  | some g =>
    have hg := regOffset_of_regAt h
    cases g <;> simp only [regOffset] at hg <;> omega

theorem windowOffset_aligned (c : Config) {off : Nat} (ho : off < 256) (ha : off % 4 = 0) :
    windowOffset c (c.regBase + off) 32 = some off := by
  simp [windowOffset, ho, ha]

theorem windowOffset_odd (c : Config) {off width : Nat} (h : width ≠ 32 ∨ off % 4 ≠ 0) :
    windowOffset c (c.regBase + off) width = none := by
  unfold windowOffset
  exact if_neg (by omega)

/-- A write access of the defined kind is the write to its offset (R22). -/
theorem hostWrite_aligned (s : State) (v : Word) {off : Nat} (ho : off < 256) (ha : off % 4 = 0) :
    hostWrite (s.cfg.regBase + off) 32 v s = .next (writeOffset off v s) :=
  hostWrite_next.mpr ⟨off, windowOffset_aligned s.cfg ho ha, rfl⟩

/-- A read access of the defined kind returns the register at its offset (R22). -/
theorem hostRead_aligned (s : State) {off : Nat} (ho : off < 256) (ha : off % 4 = 0) :
    hostRead (s.cfg.regBase + off) 32 s = .next { s with rdata := readOffset s off } :=
  hostRead_next.mpr ⟨off, windowOffset_aligned s.cfg ho ha, rfl⟩

@[simp] theorem writeOffset_ctrl (v : Word) (s : State) : writeOffset 0x008 v s = writeCtrl v s := rfl

@[simp] theorem writeOffset_status (v : Word) (s : State) : writeOffset 0x00C v s = acknowledge v s := rfl

@[simp] theorem readOffset_caps (s : State) : readOffset s 0x004 = capsWord s.cfg := rfl

@[simp] theorem readOffset_ctrl (s : State) : readOffset s 0x008 = ctrlWord s := rfl

@[simp] theorem readOffset_status (s : State) : readOffset s 0x00C = statusWord s := rfl

theorem writeOffset_reserved {off : Nat} (h : regAt off = none) (v : Word) (s : State) : writeOffset off v s = s := by
  simp [writeOffset, h]

theorem readOffset_reserved {off : Nat} (h : regAt off = none) (s : State) : readOffset s off = 0 := by
  simp [readOffset, h]

/-! ## `CTRL` (R26, R262) -/

theorem writeCtrl_softReset {v : Word} (h : v.getLsbD 31 = true) (s : State) : writeCtrl v s = resetBlock s := by
  rw [writeCtrl, if_pos h]

theorem writeCtrl_fields {v : Word} (h : v.getLsbD 31 = false) (s : State) :
    writeCtrl v s = { s with ctrl := ⟨v.getLsbD 0 && s.cfg.vecPresent, v.getLsbD 1, v.getLsbD 2⟩ } := by
  simp only [writeCtrl, h, Bool.false_eq_true, if_false]

theorem ctrlWord_toNat (s : State) :
    (ctrlWord s).toNat = s.ctrl.vecEn.toNat + 2 * s.ctrl.ieDone.toNat + 4 * s.ctrl.ieErr.toNat := by
  unfold ctrlWord
  cases s.ctrl.vecEn <;> cases s.ctrl.ieDone <;> cases s.ctrl.ieErr <;> rfl

/-! ## Reserved bits (R23, R25, R26, R28) -/

theorem capsWord_reserved (c : Config) {b : Nat} (hb : (3 ≤ b ∧ b ≤ 7) ∨ 24 ≤ b) : (capsWord c).getLsbD b = false := by
  unfold capsWord
  rcases hb with hb | hb <;>
    simp (disch := omega) only [BitVec.getLsbD_append, if_neg, if_pos, BitVec.ofNat_eq_ofNat, BitVec.getLsbD_zero]

theorem ctrlWord_reserved (s : State) {b : Nat} (hb : 3 ≤ b) : (ctrlWord s).getLsbD b = false := by
  unfold ctrlWord
  simp (disch := omega) only [BitVec.getLsbD_append, if_neg, BitVec.ofNat_eq_ofNat, BitVec.getLsbD_zero]

theorem statusWord_reserved (s : State) {b : Nat} (hb : (12 ≤ b ∧ b ≤ 15) ∨ 24 ≤ b) :
    (statusWord s).getLsbD b = false := by
  unfold statusWord
  rcases hb with hb | hb <;>
    simp (disch := omega) only [BitVec.getLsbD_append, if_neg, if_pos, BitVec.ofNat_eq_ofNat, BitVec.getLsbD_zero]

/-- A `CTRL` write depends on bits 2:0 and bit 31 only (R23, R26). -/
theorem writeCtrl_congr {v v' : Word} (h0 : v.getLsbD 0 = v'.getLsbD 0) (h1 : v.getLsbD 1 = v'.getLsbD 1)
    (h2 : v.getLsbD 2 = v'.getLsbD 2) (h31 : v.getLsbD 31 = v'.getLsbD 31) (s : State) :
    writeCtrl v s = writeCtrl v' s := by
  unfold writeCtrl
  rw [h0, h1, h2, h31]

/-- A `STATUS` write depends on bits 3:1 only (R23, R29). -/
theorem acknowledge_congr {v v' : Word} (h1 : v.getLsbD 1 = v'.getLsbD 1) (h2 : v.getLsbD 2 = v'.getLsbD 2)
    (h3 : v.getLsbD 3 = v'.getLsbD 3) (s : State) : acknowledge v s = acknowledge v' s := by
  unfold acknowledge
  rw [h1, h2, h3]

/-! ## Resets and the step that the engine shares with a write (R229, R262) -/

theorem isSoftReset_iff {c : Config} {addr width : Nat} {v : Word} :
    isSoftReset c addr width v = true ↔ windowOffset c addr width = some 0x008 ∧ v.getLsbD 31 = true := by
  rw [isSoftReset, Bool.and_eq_true, decide_eq_true_eq, regOffset]

/-- A write that is no soft reset is applied to what the engine's step answers. -/
theorem engineThenWrite_of_engineStep {addr width : Nat} {v : Word} (hr : isSoftReset s.cfg addr width v = false)
    (he : engineStep s = .next t) : engineThenWrite addr width v s = hostWrite addr width v t := by
  simp [engineThenWrite, hr, he]

/-! ## Writes and the result registers (R38) -/

theorem sameResults_trans {u : State} (hu : SameResults s u) (ht : SameResults u t) : SameResults s t := by
  obtain ⟨hn, hp, hh, he⟩ := hu
  obtain ⟨tn, tp, th, te⟩ := ht
  exact ⟨tn.trans hn, tp.trans hp, th.trans hh, te.trans he⟩

/-- A write changes no result register unless it is the soft reset. -/
theorem writeReg_sameResults (g : Reg) {v : Word} (h : g = .ctrl → v.getLsbD 31 = false) (s : State) :
    SameResults s (writeReg g v s) := by
  cases g with
  | ctrl =>
    show SameResults s (writeCtrl v s)
    rw [writeCtrl_fields (h rfl)]
    exact ⟨rfl, rfl, rfl, rfl⟩
  | cmd =>
    show SameResults s (writeCmd v s)
    unfold writeCmd
    cases s.fsm <;> exact ⟨rfl, rfl, rfl, rfl⟩
  | _ => exact ⟨rfl, rfl, rfl, rfl⟩

theorem writeOffset_sameResults {off : Nat} {v : Word} (h : off = 0x008 → v.getLsbD 31 = false) (s : State) :
    SameResults s (writeOffset off v s) := by
  unfold writeOffset
  cases hg : regAt off with
  | none => exact ⟨rfl, rfl, rfl, rfl⟩
  | some g =>
    refine writeReg_sameResults g (fun hc => h ?_) s
    rw [← regOffset_of_regAt hg, hc]
    rfl

/-- A host write that changes a result register is the soft reset. -/
theorem hostWrite_changes_results {addr width : Nat} {v : Word} (h : hostWrite addr width v s = .next t)
    (hd : ¬ SameResults s t) : windowOffset s.cfg addr width = some 0x008 ∧ v.getLsbD 31 = true := by
  obtain ⟨off, ho, rfl⟩ := hostWrite_next.mp h
  by_contra hn
  refine hd (writeOffset_sameResults (fun h8 => ?_) s)
  rw [← Bool.not_eq_true]
  exact fun hv => hn ⟨h8 ▸ ho, hv⟩

/-! ## How the engine's step ends -/

/-- The host's setup and everything outside the block are the same (R205). -/
def SameAround (s t : State) : Prop := SameSetup s t ∧ SameOutside s t

/-- The command goes on running in the same state, or it has come to its completion from a state with the same surroundings
(R223, R224). -/
def WaitsOrFinishes (s t : State) : Prop := t = s ∨ ∃ u, t = finish u ∧ SameAround s u

/-- The fields that must agree; that memory reads the same at every address follows from its being the same. -/
@[simp] theorem sameAround_iff :
    SameAround s t ↔ t.cfg = s.cfg ∧ t.ctrl = s.ctrl ∧ t.opnd = s.opnd ∧ t.mem = s.mem ∧ t.xofPort = s.xofPort ∧
      t.kmacPort = s.kmacPort ∧ t.rdata = s.rdata ∧ t.inputs = s.inputs := by
  constructor
  · rintro ⟨⟨hc, hl, ho⟩, ⟨hm, -⟩, hx, hk, hr, hi⟩
    exact ⟨hc, hl, ho, hm, hx, hk, hr, hi⟩
  · rintro ⟨hc, hl, ho, hm, hx, hk, hr, hi⟩
    exact ⟨⟨hc, hl, ho⟩, ⟨hm, fun a => by rw [hm]⟩, hx, hk, hr, hi⟩

theorem waitsOrFinishes_self (s : State) : WaitsOrFinishes s s := .inl rfl

theorem waitsOrFinishes_of_complete {u : State}
    (h : Host.Outcome.next (complete u) = (.next t : Host.Outcome State Fault Refusal)) (hu : SameAround s u) :
    WaitsOrFinishes s t := by
  cases h
  exact .inr ⟨u, rfl, hu⟩

theorem waitsOrFinishes_raiseError (code : ErrCode) (info : DWord) {u : State} (hu : SameAround s u) :
    WaitsOrFinishes s (raiseError code info u) := .inr ⟨_, rfl, hu⟩

/-- A read whose side effect on a fault stays inside the block ends well when what follows it does. -/
theorem onRead_waitsOrFinishes {α : Type} {g : Got α} {spoil : State → State}
    {k : α → Host.Outcome State Fault Refusal} (h : onRead g spoil s k = .next t)
    (hs : SameAround s (spoil s)) (hk : ∀ x, k x = .next t → WaitsOrFinishes s t) : WaitsOrFinishes s t := by
  rcases onRead_next.mp h with ⟨x, -, hx⟩ | ⟨f, -, rfl⟩ | ⟨-, rfl⟩
  · exact hk x hx
  · exact waitsOrFinishes_raiseError _ _ hs
  · exact waitsOrFinishes_self _

/-- The same of a port request. -/
theorem onPort_waitsOrFinishes {α : Type} {g : PortAnswer α} {spoil : State → State}
    {k : α → Host.Outcome State Fault Refusal} (h : onPort g spoil s k = .next t)
    (hs : SameAround s (spoil s)) (hk : ∀ x, k x = .next t → WaitsOrFinishes s t) : WaitsOrFinishes s t := by
  rcases onPort_next.mp h with ⟨x, -, hx⟩ | ⟨-, rfl⟩ | ⟨-, rfl⟩
  · exact hk x hx
  · exact waitsOrFinishes_raiseError _ _ hs
  · exact waitsOrFinishes_self _

/-- Behind its checks a command is a chain of reads and requests with a completion at its end; no side effect and no store on
the way leaves the block. -/
theorem execBody_waitsOrFinishes {i : Instr} (h : execBody i s = .next t) : WaitsOrFinishes s t := by
  cases i with
  | nop | polyInit | polyUpdnh | polyFin => exact waitsOrFinishes_of_complete h (by simp)
  | keyload | nh | polyUpd | combine =>
    exact onRead_waitsOrFinishes h (by simp) fun _ h => waitsOrFinishes_of_complete h (by simp)
  | tplInit | hash =>
    exact onRead_waitsOrFinishes h (by simp) fun _ h => onPort_waitsOrFinishes h (by simp) fun _ h =>
      waitsOrFinishes_of_complete h (by simp)
  | kdf =>
    exact onRead_waitsOrFinishes h (by simp) fun _ h => onRead_waitsOrFinishes h (by simp) fun _ h =>
      onPort_waitsOrFinishes h (by simp) fun _ h => waitsOrFinishes_of_complete h (by simp)

/-- Every command waits for an answer that never comes, or completes with or without an error. -/
theorem exec_waitsOrFinishes {i : Instr} (h : exec i s = .next t) : WaitsOrFinishes s t := by
  rcases exec_next.mp h with ⟨c, -, rfl⟩ | ⟨-, -, hb⟩
  · exact waitsOrFinishes_raiseError _ _ (by simp)
  · exact execBody_waitsOrFinishes hb

theorem engineStep_waitsOrFinishes (h : engineStep s = .next t) : WaitsOrFinishes s t := by
  rcases engineStep_next.mp h with ⟨-, rfl⟩ | ⟨-, i, -, he⟩ | ⟨-, -, rfl⟩
  · exact waitsOrFinishes_self _
  · exact exec_waitsOrFinishes he
  · exact waitsOrFinishes_raiseError _ _ (by simp)

/-- No step of the engine changes the parameters (R5). -/
theorem engineStep_cfg (h : engineStep s = .next t) : t.cfg = s.cfg := by
  rcases engineStep_waitsOrFinishes h with rfl | ⟨u, rfl, ⟨hc, -, -⟩, -⟩
  · rfl
  · exact hc

/-- A step of the engine that changes the state completes a running command. -/
theorem engineStep_completes (h : engineStep s = .next t) (hne : t ≠ s) :
    s.fsm = .busy ∧ t.fsm = .idle ∧ t.status.done = true := by
  have hb : s.fsm = .busy := by
    rcases engineStep_next.mp h with ⟨-, he⟩ | ⟨hb, -⟩ | ⟨hb, -⟩
    · exact absurd he hne
    · exact hb
    · exact hb
  rcases engineStep_waitsOrFinishes h with he | ⟨u, rfl, -⟩
  · exact absurd he hne
  · exact ⟨hb, rfl, rfl⟩

theorem engineStep_changes_results (h : engineStep s = .next t) (hd : ¬ SameResults s t) :
    s.fsm = .busy ∧ ∃ u, engineStep s = .next u ∧ u.fsm = .idle ∧ u.status.done = true := by
  obtain ⟨hb, hi, hdone⟩ := engineStep_completes h fun he => hd (he ▸ ⟨rfl, rfl, rfl, rfl⟩)
  exact ⟨hb, t, h, hi, hdone⟩

/-- A step that the engine and a write share and that changes a result register is a reset, or the engine's half of it has
completed a command: any other write keeps the results of the completion (R38, R229). -/
theorem engineThenWrite_changes_results {addr width : Nat} {v : Word} (h : engineThenWrite addr width v s = .next t)
    (hd : ¬ SameResults s t) :
    (windowOffset s.cfg addr width = some 0x008 ∧ v.getLsbD 31 = true) ∨
    (s.fsm = .busy ∧ ∃ u, engineStep s = .next u ∧ u.fsm = .idle ∧ u.status.done = true) := by
  rcases engineThenWrite_next.mp h with ⟨hr, -⟩ | ⟨-, u, he, hw⟩
  · exact .inl (isSoftReset_iff.mp hr)
  · by_cases hu : SameResults s u
    · have hut : ¬ SameResults u t := fun hut => hd (sameResults_trans hu hut)
      exact .inl (engineStep_cfg he ▸ hostWrite_changes_results hw hut)
    · exact .inr (engineStep_changes_results he hu)

/-! ## The obligations -/

/-- Settles O54: only the engine's completion and the two resets write a result register; every other move keeps all four. -/
theorem resultsChangeOnlyAtCompletionOrReset : Obligations.ResultsChangeOnlyAtCompletionOrReset := by
  intro e s t h hd
  cases e with
  | write addr width v => exact .inr (.inl ⟨addr, width, v, .inl rfl, hostWrite_changes_results h hd⟩)
  | read addr width =>
    obtain ⟨off, -, rfl⟩ := hostRead_next.mp h
    exact absurd ⟨rfl, rfl, rfl, rfl⟩ hd
  | store addr b =>
    obtain ⟨-, -, rfl⟩ := hostStore_next h
    exact absurd ⟨rfl, rfl, rfl, rfl⟩ hd
  | busError addr =>
    cases h
    exact absurd ⟨rfl, rfl, rfl, rfl⟩ hd
  | port p m =>
    cases h
    cases p <;> exact absurd ⟨rfl, rfl, rfl, rfl⟩ hd
  | hwReset => exact .inl rfl
  | engine =>
    obtain ⟨hb, hu⟩ := engineStep_changes_results h hd
    exact .inr (.inr ⟨hb, hu, .inl rfl⟩)
  | engineWrite addr width v =>
    rcases engineThenWrite_changes_results h hd with hr | ⟨hb, hu⟩
    · exact .inr (.inl ⟨addr, width, v, .inr rfl, hr⟩)
    · exact .inr (.inr ⟨hb, hu, .inr ⟨addr, width, v, rfl⟩⟩)

/-- Settles O12: the write is `acknowledge`, and as it is no reset the shared step applies it to the engine's answer. -/
theorem statusWriteClearsThreeBits : Obligations.StatusWriteClearsThreeBits := by
  constructor
  · intro s v
    refine ⟨_, hostWrite_aligned s v (by decide) (by decide), ?_⟩
    rw [writeOffset_status]
    exact ⟨rfl, rfl, by simp, by simp, by simp⟩
  · intro s t v he _
    have hr : isSoftReset s.cfg (s.cfg.regBase + 0x00C) 32 v = false := by
      simp [isSoftReset, windowOffset_aligned, regOffset]
    exact engineThenWrite_of_engineStep hr he

/-- Settles O13, by bit 31 of the written word: the three fields are stored, or the block is reset. -/
theorem ctrlWriteStoresThreeBits : Obligations.CtrlWriteStoresThreeBits := by
  constructor
  · intro s v h31
    refine ⟨_, hostWrite_aligned s v (by decide) (by decide), ?_⟩
    rw [writeOffset_ctrl, writeCtrl_fields h31]
    exact ⟨rfl, ctrlWord_toNat _⟩
  · intro s v h31
    refine ⟨_, hostWrite_aligned s v (by decide) (by decide), ?_⟩
    rw [writeOffset_ctrl, writeCtrl_softReset h31]
    exact ⟨rfl, BitVec.eq_of_toNat_eq (ctrlWord_toNat _), rfl⟩

/-- Settles O16: no register has a reserved offset, and neither a read nor a write looks at a reserved bit. -/
theorem reservedPlacesReadZero : Obligations.ReservedPlacesReadZero := by
  refine ⟨?_, ?_, ?_⟩
  · intro s off v ha hoff
    have hn := regAt_eq_none_of_reserved hoff
    have ho : off < 256 := by omega
    rw [hostRead_aligned s ho ha, hostWrite_aligned s v ho ha, readOffset_reserved hn, writeOffset_reserved hn]
    exact ⟨rfl, rfl⟩
  · intro s b
    rw [readOffset_caps, readOffset_ctrl, readOffset_status]
    exact ⟨capsWord_reserved s.cfg, ctrlWord_reserved s, statusWord_reserved s⟩
  · intro s v v'
    simp only [writeOffset_ctrl, writeOffset_status]
    exact ⟨fun h0 h1 h2 h31 => writeCtrl_congr h0 h1 h2 h31 s, fun h1 h2 h3 => acknowledge_congr h1 h2 h3 s⟩

/-- Settles O17: an access reaches an offset of the window exactly when it is 32 bits wide at a multiple of 4. -/
theorem oddAccessesAreRefused : Obligations.OddAccessesAreRefused := by
  intro s off width v ho
  constructor
  · intro h
    simp [hostWrite, hostRead, windowOffset_odd s.cfg h]
  · rintro rfl ha
    exact ⟨⟨_, hostWrite_aligned s v ho ha⟩, hostRead_aligned s ho ha⟩

end Sys2Proof.Machine
end

section
/-! PROOFS of the family 30_encoding.md: which words decode, and what becomes of a word that does not. -/

namespace Sys2Proof.Machine

open Sys2Proof

variable {s : State} {w : Word}

/-! ## Which words decode (R80 to R85) -/

theorem rsvField_eq_zero_iff : rsvField w = 0 ↔ w.toNat / 65536 = 0 := by
  rw [← BitVec.toNat_inj, rsvField_toNat]
  rfl

theorem plainCommand_error {arg : Byte} {i : Instr} : (∃ r, plainCommand arg i = .error r) ↔ arg ≠ 0 := by
  by_cases h : arg = 0#8 <;> simp [plainCommand, h]

/-- An opcode fails to decode when it is not listed, or when it is a listed one other than `NH` and `ARG` is not 0 (R81, R83). -/
theorem decodeOp_error {op arg : Byte} :
    (∃ r, decodeOp op arg = .error r) ↔
      op.toNat ∉ [0x00, 0x01, 0x02, 0x03, 0x10, 0x20, 0x21, 0x22, 0x23, 0x30, 0x31] ∨
      (op.toNat ≠ 0x10 ∧ arg.toNat ≠ 0) := by
  have harg : arg ≠ 0 ↔ arg.toNat ≠ 0 := not_congr BitVec.toNat_inj.symm
  unfold decodeOp
  split
  -- `NH`, which takes any `ARG`
  case h_5 => simp
  -- no listed opcode
  case h_12 => simp_all [← BitVec.toNat_inj]
  -- the ten commands without an operand in their word
  all_goals simpa [plainCommand_error] using harg

theorem decode_error :
    (∃ r, decode w = .error r) ↔
      w.toNat / 65536 ≠ 0 ∨ ∃ r, decodeOp (opField w) (argField w) = .error r := by
  rw [Ne, ← rsvField_eq_zero_iff, decode]
  by_cases h : rsvField w = 0
  · rw [if_pos h]
    simp only [h, not_true_eq_false, false_or]
  · rw [if_neg h]
    exact iff_of_true ⟨_, rfl⟩ (.inl h)

/-- A word with `RSV = 0` and the opcode of `NH` is `NH` with the unit count in `ARG` (R81, R83). -/
theorem decode_nh (hr : w.toNat / 65536 = 0) (ho : w.toNat % 256 = 0x10) :
    decode w = .ok (.nh (w.toNat / 256 % 256)) := by
  have hop : opField w = 0x10 := BitVec.eq_of_toNat_eq ((opField_toNat w).trans ho)
  rw [decode, if_pos (rsvField_eq_zero_iff.mpr hr), hop, ← argField_toNat]
  rfl

/-- The word of `NH n` as R89 lists it. -/
theorem decode_nhWord {n : Nat} (hn : n < 256) : decode (BitVec.ofNat 32 (0x00000010 + 0x100 * n)) = .ok (.nh n) := by
  have hw : (BitVec.ofNat 32 (0x00000010 + 0x100 * n)).toNat = 0x10 + 0x100 * n := by
    rw [BitVec.toNat_ofNat]
    omega
  rw [decode_nh (by omega) (by omega), hw]
  congr 2
  omega

/-- A unit count outside `1..64` fails the length check, the first one behind a valid key (R86, R222). -/
theorem exec_nh_badLength {n : Nat} (hk : s.status.keyValid = true) (hn : n < 1 ∨ 64 < n) :
    exec (.nh n) s = .next (raiseError .badLength 0 s) := by
  have hl : lengthOk s (.nh n) = false := by
    simp only [lengthOk, Bool.and_eq_false_iff, decide_eq_false_iff_not]
    omega
  have hf : firstFailed (.nh n) s = some ⟨true, false, .badLength, 0⟩ := by
    simp [firstFailed, checksOf, needsKey, needsPoly, lengthError, hk, hl]
  exact exec_next.mpr (.inl ⟨_, hf, rfl⟩)

/-! ## A word that does not decode (R85, R101, R102) -/

theorem opField_eq_ofNat (w : Word) : opField w = BitVec.ofNat 8 w.toNat :=
  BitVec.eq_of_toNat_eq (opField_toNat w)

theorem showsVector_of_error {r : Illegal} (h : decode w = .error r) : showsVector w = false := by
  simp [showsVector, h]

theorem writeCmd_idle (h : s.fsm = .idle) (w : Word) : writeCmd w s = accept w s := by
  simp [writeCmd, h]

/-- The engine's step on an illegal word that was just accepted is the completion with `ILLEGAL_CMD`. -/
theorem engineStep_accept_illegal {r : Illegal} (h : decode w = .error r) (s : State) :
    engineStep (accept w s) = .next (raiseError .illegalCmd 0 (accept w s)) := by
  have hd : decode (commandWord (accept w s).lat) = .error r := by rw [accept_lat, commandWord_latch, h]
  exact engineStep_next.mpr (.inr (.inr ⟨accept_fsm s w, ⟨r, hd⟩, (illegalCommand_eq _).symm⟩))

/-! ## The obligations -/

/-- Settles O4: a word is illegal by its fields, and its completion right after acceptance touches `STATUS` alone. -/
theorem illegalWordsCompleteWithIllegalCmd : Obligations.IllegalWordsCompleteWithIllegalCmd := by
  intro s w hidle
  constructor
  · rw [decode_error, decodeOp_error, opField_toNat, argField_toNat]
  · rintro ⟨r, hr⟩
    refine ⟨raiseError .illegalCmd 0 (accept w s), ?_, ?_, ?_⟩
    · rw [writeCmd_idle hidle, engineStep_accept_illegal hr]
    · simp [showsVector_of_error hr, opField_eq_ofNat]
    · simp [SameSetup, SameOutside, SameMemory, SameKeys, SameAcc, SameResults, ErrCode.recordsAddr]

/-- Settles O3: the fixed words by evaluation, `NH n` for every `n` by its fields, the two bad lengths by the table of checks. -/
theorem listedWordsDecode : Obligations.ListedWordsDecode := by
  refine ⟨rfl, rfl, rfl, rfl, fun n hn => decode_nhWord hn, rfl, rfl, rfl, rfl, rfl, rfl, rfl, rfl, rfl, rfl, rfl, rfl, rfl,
    rfl, rfl, ?_⟩
  intro n s hk hn
  exact ⟨_, exec_nh_badLength hk (by omega), rfl, rfl⟩

end Sys2Proof.Machine
end

section
/-! PROOFS of the family 40_control.md: what a `CMD` write latches or drops, and which moves take `OVR` back. -/

namespace Sys2Proof.Machine

open Sys2Proof

variable {s t : State}

/-! ## Registers that a host write sets (R21, R26, R31 to R33) -/

/-- The seven operand registers (R31 to R33). -/
def Reg.isOperand : Reg → Bool
  | .srcAddrLo | .srcAddrHi | .srcLenLo | .srcLenHi | .ctxAddrLo | .ctxAddrHi | .ctxLen => true
  | .id | .caps | .ctrl | .status | .cmd | .errAddrLo | .errAddrHi | .nhOut _ | .polyOut _ | .hashOut _ => false

/-- Every register reads the same after a write to an operand register, but for that one, which reads the written word. -/
theorem readReg_writeReg_operand {g : Reg} (hg : g.isOperand = true) (g' : Reg) (v : Word) (s : State) :
    readReg (writeReg g v s) g' = if g' = g then v else readReg s g' := by
  cases g with
  | srcAddrLo | srcAddrHi | srcLenLo | srcLenHi | ctxAddrLo | ctxAddrHi | ctxLen => cases g' <;> rfl
  | _ => cases hg

theorem writeReg_operand_frame {g : Reg} (hg : g.isOperand = true) (v : Word) (s : State) :
    writeReg g v s = { s with opnd := (writeReg g v s).opnd } := by
  cases g with
  | srcAddrLo | srcAddrHi | srcLenLo | srcLenHi | ctxAddrLo | ctxAddrHi | ctxLen => rfl
  | _ => cases hg

/-- No register but `CTRL` shows its fields (R26). -/
theorem readReg_ctrl_frame {g : Reg} (hg : g ≠ .ctrl) (c : Ctrl) (s : State) :
    readReg { s with ctrl := c } g = readReg s g := by
  cases g with
  | ctrl => exact absurd rfl hg
  | _ => rfl

theorem writeOffset_of_regAt {off : Nat} {g : Reg} (h : regAt off = some g) (v : Word) (s : State) :
    writeOffset off v s = writeReg g v s := by
  simp [writeOffset, h]

theorem readOffset_of_regAt {off : Nat} {g : Reg} (h : regAt off = some g) (s : State) :
    readOffset s off = readReg s g := by
  simp [readOffset, h]

/-- States that agree on every register but one read the same at every offset but that register's. -/
theorem readOffset_congr_of_ne {off off' : Nat} {g : Reg} (hg : regAt off = some g)
    (h : ∀ g', g' ≠ g → readReg t g' = readReg s g') (hne : off' ≠ off) : readOffset t off' = readOffset s off' := by
  cases hg' : regAt off' with
  | none => rw [readOffset_reserved hg', readOffset_reserved hg']
  | some g' =>
    rw [readOffset_of_regAt hg', readOffset_of_regAt hg']
    refine h g' fun he => hne ?_
    rw [← regOffset_of_regAt hg', ← regOffset_of_regAt hg, he]

/-- The seven offsets of R21 hold operand registers. -/
theorem regAt_operandOffset {off : Nat} (h : off ∈ [0x018, 0x01C, 0x020, 0x024, 0x028, 0x02C, 0x030]) :
    off < 256 ∧ off % 4 = 0 ∧ ∃ g, regAt off = some g ∧ g.isOperand = true := by
  fin_cases h <;> exact ⟨by decide, by decide, _, rfl, rfl⟩

/-! ## What acceptance latches (R31 to R33, R102) -/

/-- Two 32-bit registers as one 64-bit value (R68). -/
theorem wordPair_toNat (hi lo : Word) : (hi ++ lo : DWord).toNat = hi.toNat * 2 ^ 32 + lo.toNat := by
  rw [BitVec.toNat_append, ← Nat.shiftLeft_add_eq_or_of_lt lo.isLt, Nat.shiftLeft_eq]

theorem showsVector_iff {w : Word} :
    showsVector w = true ↔ (∃ n, decode w = .ok (.nh n)) ∨ decode w = .ok .combine ∨ decode w = .ok .hash := by
  unfold showsVector
  split <;> simp_all

/-! ## `OVR` (R29, R103) -/

theorem writeCmd_busy (h : s.fsm = .busy) (w : Word) :
    writeCmd w s = { s with status := { s.status with ovr := true } } := by
  simp [writeCmd, h]

/-- A write to `CMD` sets `OVR` or leaves it (R102, R103). -/
theorem writeCmd_keeps_ovr (hs : s.status.ovr = true) (w : Word) : (writeCmd w s).status.ovr = true := by
  cases hf : s.fsm with
  | idle => rw [writeCmd_idle hf, accept_status, hs]
  | busy => rw [writeCmd_busy hf]

/-- A register write takes `OVR` back only as an acknowledgement of bit 3 or as the soft reset. -/
theorem writeReg_clears_ovr {g : Reg} {v : Word} (hs : s.status.ovr = true)
    (ht : (writeReg g v s).status.ovr = false) :
    (g = .status ∧ v.getLsbD 3 = true) ∨ (g = .ctrl ∧ v.getLsbD 31 = true) := by
  cases g with
  | status =>
    have hv : (s.status.ovr && !v.getLsbD 3) = false := ht
    exact .inl ⟨rfl, by simpa [hs] using hv⟩
  | ctrl =>
    cases hv : v.getLsbD 31 with
    | true => exact .inr ⟨rfl, rfl⟩
    | false =>
      have hk : (writeCtrl v s).status.ovr = false := ht
      rw [writeCtrl_fields hv] at hk
      exact Bool.noConfusion (hs.symm.trans hk)
  | cmd => exact Bool.noConfusion ((writeCmd_keeps_ovr hs v).symm.trans ht)
  | _ => exact Bool.noConfusion (hs.symm.trans ht)

theorem hostWrite_clears_ovr {addr width : Nat} {v : Word} (h : hostWrite addr width v s = .next t)
    (hs : s.status.ovr = true) (ht : t.status.ovr = false) :
    (windowOffset s.cfg addr width = some 0x00C ∧ v.getLsbD 3 = true) ∨
    (windowOffset s.cfg addr width = some 0x008 ∧ v.getLsbD 31 = true) := by
  obtain ⟨off, ho, rfl⟩ := hostWrite_next.mp h
  cases hg : regAt off with
  | none =>
    rw [writeOffset_reserved hg] at ht
    exact Bool.noConfusion (hs.symm.trans ht)
  | some g =>
    rw [writeOffset_of_regAt hg] at ht
    rw [ho, ← regOffset_of_regAt hg]
    rcases writeReg_clears_ovr hs ht with ⟨rfl, hv⟩ | ⟨rfl, hv⟩
    · exact .inl ⟨rfl, hv⟩
    · exact .inr ⟨rfl, hv⟩

/-- What holds when a read is never answered, at its bus error and behind its data, holds of whatever the read ends in. -/
theorem onRead_elim {P : State → Prop} {α : Type} {g : Got α} {spoil : State → State}
    {k : α → Host.Outcome State Fault Refusal} (h : onRead g spoil s k = .next t) (hwait : P s)
    (hfault : ∀ info, P (raiseError .memFault info (spoil s))) (hk : ∀ x, k x = .next t → P t) : P t := by
  rcases onRead_next.mp h with ⟨x, -, hx⟩ | ⟨f, -, rfl⟩ | ⟨-, rfl⟩
  · exact hk x hx
  · exact hfault _
  · exact hwait

/-- The same of a port request. -/
theorem onPort_elim {P : State → Prop} {α : Type} {g : PortAnswer α} {spoil : State → State}
    {k : α → Host.Outcome State Fault Refusal} (h : onPort g spoil s k = .next t) (hwait : P s)
    (herror : P (raiseError .primFault 0 (spoil s))) (hk : ∀ x, k x = .next t → P t) : P t := by
  rcases onPort_next.mp h with ⟨x, -, hx⟩ | ⟨-, rfl⟩ | ⟨-, rfl⟩
  · exact hk x hx
  · exact herror
  · exact hwait

/-- The state has the same `OVR`. -/
def SameOvr (s t : State) : Prop := t.status.ovr = s.status.ovr

theorem sameOvr_of_complete {u : State}
    (h : Host.Outcome.next (complete u) = (.next t : Host.Outcome State Fault Refusal)) (hu : SameOvr s u) :
    SameOvr s t := by
  cases h
  exact hu

/-- No store and no error side effect of a command touches `OVR`. -/
theorem execBody_sameOvr {i : Instr} (h : execBody i s = .next t) : SameOvr s t := by
  cases i with
  | nop | polyInit | polyUpdnh | polyFin => exact sameOvr_of_complete h rfl
  | keyload | nh | polyUpd | combine =>
    exact onRead_elim h rfl (fun _ => rfl) fun _ h => sameOvr_of_complete h rfl
  | tplInit | hash =>
    exact onRead_elim h rfl (fun _ => rfl) fun _ h => onPort_elim h rfl rfl fun _ h =>
      sameOvr_of_complete h rfl
  | kdf =>
    exact onRead_elim h rfl (fun _ => rfl) fun _ h => onRead_elim h rfl (fun _ => rfl) fun _ h =>
      onPort_elim h rfl rfl fun _ h => sameOvr_of_complete h rfl

theorem engineStep_sameOvr (h : engineStep s = .next t) : SameOvr s t := by
  rcases engineStep_next.mp h with ⟨-, rfl⟩ | ⟨-, i, -, he⟩ | ⟨-, -, rfl⟩
  · rfl
  · rcases exec_next.mp he with ⟨c, -, rfl⟩ | ⟨-, -, hb⟩
    · rfl
    · exact execBody_sameOvr hb
  · rfl

/-- In a step that the engine and a write share, it is the write that takes `OVR` back (R229). -/
theorem engineThenWrite_clears_ovr {addr width : Nat} {v : Word} (h : engineThenWrite addr width v s = .next t)
    (hs : s.status.ovr = true) (ht : t.status.ovr = false) :
    (windowOffset s.cfg addr width = some 0x00C ∧ v.getLsbD 3 = true) ∨
    (windowOffset s.cfg addr width = some 0x008 ∧ v.getLsbD 31 = true) := by
  rcases engineThenWrite_next.mp h with ⟨-, hw⟩ | ⟨-, u, he, hw⟩
  · exact hostWrite_clears_ovr hw hs ht
  · exact engineStep_cfg he ▸ hostWrite_clears_ovr hw ((engineStep_sameOvr he).trans hs) ht

/-! ## The obligations -/

/-- Settles O6: the `CMD` write is `accept`; an operand or `CTRL` write sets one register, and no other register shows it. -/
theorem acceptanceLatchesTheOperands : Obligations.AcceptanceLatchesTheOperands := by
  refine ⟨?_, ?_, ?_⟩
  · intro s w hidle
    refine ⟨accept w s, ?_, opField_toNat w, argField_toNat w, rsvField_toNat w, wordPair_toNat _ _, wordPair_toNat _ _,
      wordPair_toNat _ _, rfl, rfl, rfl, rfl, rfl, ?_, ?_⟩
    · rw [hostWrite_aligned s w (by decide) (by decide), writeOffset_of_regAt (g := .cmd) rfl]
      exact congrArg _ (writeCmd_idle hidle w)
    · rw [← showsVector_iff, and_comm]
      exact Bool.and_eq_true_iff
    · simp [SameSetup, SameOutside, SameMemory, SameKeys, SameAcc, SameResults]
  · intro s off v hoff
    obtain ⟨ho, ha, g, hg, hop⟩ := regAt_operandOffset hoff
    have hread := fun g' => readReg_writeReg_operand hop g' v s
    refine ⟨writeReg g v s, ?_, writeReg_operand_frame hop v s, ?_, fun off' hne => ?_⟩
    · rw [hostWrite_aligned s v ho ha, writeOffset_of_regAt hg]
    · rw [readOffset_of_regAt hg, hread, if_pos rfl]
    · exact readOffset_congr_of_ne hg (fun g' hg' => by rw [hread, if_neg hg']) hne
  · intro s v h31
    refine ⟨_, ?_, rfl, fun off' hne => ?_⟩
    · rw [hostWrite_aligned s v (by decide) (by decide), writeOffset_ctrl, writeCtrl_fields h31]
    · exact readOffset_congr_of_ne (g := .ctrl) rfl (fun g' hg' => readReg_ctrl_frame hg' _ s) hne

/-- Settles O7: a busy block answers a `CMD` write with `OVR` alone, and of all moves only the two resets and an
acknowledgement write take `OVR` back. -/
theorem commandWhileBusyIsDropped : Obligations.CommandWhileBusyIsDropped := by
  constructor
  · intro s w hb
    rw [hostWrite_aligned s w (by decide) (by decide), writeOffset_of_regAt (g := .cmd) rfl]
    exact congrArg _ (writeCmd_busy hb w)
  · intro e s t h hs ht
    have hchanged : ¬ SameOvr s t := fun hsame => Bool.noConfusion (ht.symm.trans (hsame.trans hs))
    cases e with
    | write addr width v => exact .inr ⟨addr, width, v, .inl rfl, hostWrite_clears_ovr h hs ht⟩
    | read addr width =>
      obtain ⟨off, -, rfl⟩ := hostRead_next.mp h
      exact absurd rfl hchanged
    | store addr b =>
      obtain ⟨-, -, rfl⟩ := hostStore_next h
      exact absurd rfl hchanged
    | busError addr =>
      cases h
      exact absurd rfl hchanged
    | port p m =>
      cases h
      cases p <;> exact absurd rfl hchanged
    | hwReset => exact .inl rfl
    | engine => exact absurd (engineStep_sameOvr h) hchanged
    | engineWrite addr width v => exact .inr ⟨addr, width, v, .inr rfl, engineThenWrite_clears_ovr h hs ht⟩

end Sys2Proof.Machine
end

section
/-! PROOFS of the family 43_poly.md: the field accumulator chunk by chunk, its special cases, and the limb form that agrees with it. -/

namespace Sys2Proof.Machine

open Sys2Proof

/-! ## The residue form, chunk by chunk (R162, R166, R167) -/

section Residue

variable {r : BitVec 128} {h : Fin polyP} {c d : Bytes}

theorem polyP_eq : polyP = 2 ^ 130 - 5 := by norm_num

theorem chunkValue_eq (hc : c.length = 16) : chunkValue c = leNat c + 2 ^ 128 := by
  simp [chunkValue, le128, slice, List.take_of_length_le hc.le]

theorem foldChunk_val (hc : c.length = 16) :
    (foldChunk r h c).val = (h.val + (leNat c + 2 ^ 128)) * r.toNat % (2 ^ 130 - 5) := by
  simp only [foldChunk, chunkValue_eq hc, polyP_eq]

@[simp] theorem fold_nil (r : BitVec 128) (h : Fin polyP) : fold r h [] = h := rfl

/-- Folding starts with the first chunk. -/
theorem fold_chunk_append (hc : c.length = 16) : fold r h (c ++ d) = fold r (foldChunk r h c) d := by
  have hn : (c ++ d).length / 16 = d.length / 16 + 1 := by
    rw [List.length_append, hc]
    omega
  rw [fold, hn, foldChunks, List.take_left' hc, List.drop_left' hc, fold]

theorem fold_of_le_length (hd : 16 ≤ d.length) : fold r h d = fold r (foldChunk r h (d.take 16)) (d.drop 16) := by
  rw [← fold_chunk_append (List.length_take_of_le hd), List.take_append_drop]

theorem fold_chunk (hc : c.length = 16) : fold r h c = foldChunk r h c := by
  simpa using fold_chunk_append (d := []) hc

/-- Folding splits after any number of whole chunks. -/
theorem fold_append (b : Bytes) (n : Nat) {a : Bytes} (ha : a.length = 16 * n) :
    fold r h (a ++ b) = fold r (fold r h a) b := by
  induction n generalizing h a with
  | zero => rw [List.length_eq_zero_iff.mp ha, List.nil_append, fold_nil]
  | succ n ih =>
    have hd : (a.drop 16).length = 16 * n := by
      rw [List.length_drop, ha]
      omega
    have htake : (a.take 16).length = 16 := List.length_take_of_le (by omega)
    rw [fold_of_le_length (d := a) (by omega), ← ih hd, ← fold_chunk_append htake, ← List.append_assoc,
      List.take_append_drop]

theorem finalize_toNat (h : Fin polyP) : (finalize h).toNat = h.val % 2 ^ 128 := BitVec.toNat_ofNat _ _

/-- The chunk of a 16-byte string is folded by its number, and any number congruent to the residue takes the same step. -/
theorem foldChunk_modEq {a : Nat} (ha : a ≡ h.val [MOD polyP]) (c : Str16) :
    (a + (c.toNat + 2 ^ 128)) * r.toNat ≡ (foldChunk r h (unpackBytes c 0 16)).val [MOD polyP] := by
  have hv : leNat (unpackBytes c 0 16) = c.toNat := by
    rw [unpackBytes, leNat_leBytes]
    have hc := c.isLt
    omega
  simp only [foldChunk, chunkValue_eq (unpackBytes_length c 0 16), hv]
  exact ((ha.add_right _).mul_right _).trans (Nat.mod_modEq _ _).symm

/-! ## Multipliers zero and one (R168) -/

theorem foldChunk_zero (h : Fin polyP) (c : Bytes) : foldChunk 0 h c = 0 := by
  apply Fin.ext
  simp [foldChunk]

/-- Under a zero multiplier the accumulator stays at 0. -/
theorem foldChunks_zero (n : Nat) (d : Bytes) : foldChunks 0 n 0 d = 0 := by
  induction n generalizing d with
  | zero => rfl
  | succ n ih => rw [foldChunks, foldChunk_zero, ih]

theorem fold_zero (hd : 16 ≤ d.length) : fold 0 h d = 0 := by
  rw [fold_of_le_length hd, foldChunk_zero]
  exact foldChunks_zero _ _

/-- Under multiplier one a chunk is added modulo p. -/
theorem fold_one_val (hc : c.length = 16) : (fold 1 h c).val = (h.val + leNat c + 2 ^ 128) % (2 ^ 130 - 5) := by
  have h1 : (1 : BitVec 128).toNat = 1 := rfl
  rw [fold_chunk hc, foldChunk_val hc, h1, Nat.mul_one, Nat.add_assoc]

end Residue

/-! ## The limbs of the clamped key (R161) -/

/-- A bitwise `and` splits at any bit. -/
theorem and_split (x m n : Nat) : x &&& m = (x &&& m % 2 ^ n) + (x / 2 ^ n &&& m / 2 ^ n) * 2 ^ n := by
  have hlow : x &&& m % 2 ^ n = (x &&& m) % 2 ^ n := by
    have hlt : x &&& m % 2 ^ n < 2 ^ n := lt_of_le_of_lt Nat.and_le_right (Nat.mod_lt _ (Nat.two_pow_pos n))
    rw [← Nat.mod_eq_of_lt hlt, Nat.and_mod_two_pow, Nat.and_mod_two_pow, Nat.mod_mod]
  rw [hlow, ← Nat.and_div_two_pow, Nat.mod_add_div']

theorem lowHalf_and (k : Str16) {m : Nat} (hm : m < 2 ^ 64) : lowHalf k &&& m = k.toNat &&& m := by
  have hlt : k.toNat &&& m < 2 ^ 64 := lt_of_le_of_lt Nat.and_le_right hm
  rw [lowHalf, ← Nat.mod_eq_of_lt hlt, Nat.and_mod_two_pow, Nat.mod_eq_of_lt hm]

/-- The bits of a 16-byte string from bit 44 up, as the limb form gathers them from the halves. -/
theorem halves_from_bit44 (k : Str16) : (lowHalf k >>> 44 ||| highHalf k <<< 20) = k.toNat / 2 ^ 44 := by
  rw [Nat.shiftRight_eq_div_pow, or_shiftLeft _ _ _ (by unfold lowHalf; omega)]
  unfold lowHalf highHalf
  omega

theorem highHalf_from_bit24 (k : Str16) : highHalf k >>> 24 = k.toNat / 2 ^ 88 := by
  rw [Nat.shiftRight_eq_div_pow, highHalf, Nat.div_div_eq_div_mul, ← Nat.pow_add]

/-- The limbs of the key, each as its bits of the clamp mask. -/
theorem limbKey_eq (k : Str16) :
    limbKey k = ⟨k.toNat &&& 0xFFC0FFFFFFF, k.toNat / 2 ^ 44 &&& 0xFFFFFC0FFFF, k.toNat / 2 ^ 88 &&& 0x00FFFFFFC0F⟩ := by
  rw [limbKey, lowHalf_and k (by norm_num), halves_from_bit44, highHalf_from_bit24]

/-- The limbs of the key are worth the clamped key. -/
theorem limbKey_value (k : Str16) : (limbKey k).value = (clamp k).toNat := by
  have hsplit : (clamp k).toNat =
      (k.toNat &&& 0xFFC0FFFFFFF) +
        ((k.toNat / 2 ^ 44 &&& 0xFFFFFC0FFFF) + (k.toNat / 2 ^ 44 / 2 ^ 44 &&& 0x00FFFFFFC0F) * 2 ^ 44) * 2 ^ 44 := by
    rw [clamp, BitVec.toNat_and, and_split _ _ 44, and_split (k.toNat / 2 ^ 44) _ 44]
    rfl
  rw [hsplit, limbKey_eq, Limbs.value, Nat.div_div_eq_div_mul, ← Nat.pow_add]
  ring

/-! ## The sizes of the limbs (R169) -/

/-- The sizes that the limbs have between two chunks: only the middle limb may exceed its 44 bits. -/
structure Limbs.Carried (h : Limbs) : Prop where
  l0_lt : h.l0 < 2 ^ 44
  l1_lt : h.l1 < 2 ^ 45
  l2_lt : h.l2 < 2 ^ 42

theorem carried_zero : Limbs.Carried ⟨0, 0, 0⟩ := ⟨by norm_num, by norm_num, by norm_num⟩

theorem limbAdd_lt {h : Limbs} (hh : h.Carried) (c : Str16) :
    (limbAdd h c).l0 < 2 ^ 45 ∧ (limbAdd h c).l1 < 2 ^ 46 ∧ (limbAdd h c).l2 < 2 ^ 43 := by
  obtain ⟨h0, h1, h2⟩ := hh
  have hc := c.isLt
  simp only [limbAdd_eq]
  omega

/-- The column sums of limbs that just took a chunk, against limbs of the sizes of a key. -/
theorem limbProduct_lt {h r : Limbs} (hh : h.l0 < 2 ^ 45 ∧ h.l1 < 2 ^ 46 ∧ h.l2 < 2 ^ 43)
    (hr : r.l0 < 2 ^ 44 ∧ r.l1 < 2 ^ 44 ∧ r.l2 < 2 ^ 42) :
    (limbProduct h r).l0 < 2 ^ 94 ∧ (limbProduct h r).l1 < 2 ^ 94 ∧ (limbProduct h r).l2 < 2 ^ 94 := by
  obtain ⟨h0, h1, h2⟩ := hh
  obtain ⟨r0, r1, r2⟩ := hr
  have s1 : r.l1 * 20 < 2 ^ 49 := by omega
  have s2 : r.l2 * 20 < 2 ^ 47 := by omega
  refine ⟨?_, ?_, ?_⟩
  · have p0 := Nat.mul_lt_mul'' h0 r0
    have p1 := Nat.mul_lt_mul'' h1 s2
    have p2 := Nat.mul_lt_mul'' h2 s1
    simp only [limbProduct]
    omega
  · have p0 := Nat.mul_lt_mul'' h0 r1
    have p1 := Nat.mul_lt_mul'' h1 r0
    have p2 := Nat.mul_lt_mul'' h2 s2
    simp only [limbProduct]
    omega
  · have p0 := Nat.mul_lt_mul'' h0 r2
    have p1 := Nat.mul_lt_mul'' h1 r1
    have p2 := Nat.mul_lt_mul'' h2 r0
    simp only [limbProduct]
    omega

theorem limbCarry_carried {d : Limbs} (hd : d.l0 < 2 ^ 94 ∧ d.l1 < 2 ^ 94 ∧ d.l2 < 2 ^ 94) :
    (limbCarry d).Carried := by
  obtain ⟨h0, h1, h2⟩ := hd
  constructor <;> simp only [limbCarry, and_mask44, and_mask42, Nat.shiftRight_eq_div_pow] <;> omega

theorem limbUpdate_carried (k : Str16) {h : Limbs} (hh : h.Carried) (c : Str16) :
    (limbUpdate (limbKey k) h c).Carried :=
  limbCarry_carried (limbProduct_lt (limbAdd_lt hh c) (limbKey_lt k))

/-! ## What an update does to the value (R169, R170) -/

theorem limbUpdate_value (k : Str16) (h : Limbs) (c : Str16) :
    (limbUpdate (limbKey k) h c).value ≡ (h.value + (c.toNat + 2 ^ 128)) * (clamp k).toNat [MOD polyP] := by
  obtain ⟨q, hq⟩ := limbCarry_value (limbProduct (limbAdd h c) (limbKey k))
  have hprod := limbProduct_value (limbAdd h c) (limbKey k)
  rw [limbAdd_value, limbKey_value, hq, ← polyP_eq] at hprod
  rw [hprod, limbUpdate]
  simp [Nat.ModEq]

/-- Along any chunks the limbs stay carried and worth the residue modulo p. -/
theorem foldl_limbUpdate (k : Str16) (cs : List Str16) {x : Limbs} {h : Fin polyP} (hx : x.Carried)
    (hv : x.value ≡ h.val [MOD polyP]) :
    (cs.foldl (limbUpdate (limbKey k)) x).Carried ∧
    (cs.foldl (limbUpdate (limbKey k)) x).value ≡
      (fold (clamp k) h (cs.flatMap fun c => unpackBytes c 0 16)).val [MOD polyP] := by
  induction cs generalizing x h with
  | nil => exact ⟨hx, hv⟩
  | cons c cs ih =>
    rw [List.foldl_cons, List.flatMap_cons, fold_chunk_append (unpackBytes_length c 0 16)]
    exact ih (limbUpdate_carried k hx c) ((limbUpdate_value k x c).trans (foldChunk_modEq hv c))

/-! ## `finalize` in limbs (R166, R169) -/

/-- Limbs that all fit: 44, 44 and 42 bits. -/
structure Limbs.Full (h : Limbs) : Prop where
  l0_lt : h.l0 < 2 ^ 44
  l1_lt : h.l1 < 2 ^ 44
  l2_lt : h.l2 < 2 ^ 42

/-- Limbs that fit are 64-bit words. -/
theorem Limbs.Full.lt_word {h : Limbs} (hh : h.Full) : h.l0 < 2 ^ 64 ∧ h.l1 < 2 ^ 64 ∧ h.l2 < 2 ^ 64 := by
  obtain ⟨h0, h1, h2⟩ := hh
  omega

theorem Limbs.Full.value_lt {h : Limbs} (hh : h.Full) : h.value < 2 ^ 130 := by
  obtain ⟨h0, h1, h2⟩ := hh
  rw [Limbs.value]
  omega

/-- One round leaves at most one unit too much in the middle limb, and the second takes it out. -/
theorem limbRound_twice_full {h : Limbs} (hh : h.Carried) : (limbRound (limbRound h)).Full := by
  obtain ⟨h0, h1, h2⟩ := hh
  have first : (limbRound h).l0 < 2 ^ 44 ∧ (limbRound h).l1 ≤ 2 ^ 44 ∧ (limbRound h).l2 < 2 ^ 42 := by
    simp only [limbRound, and_mask44, and_mask42, Nat.shiftRight_eq_div_pow]
    omega
  generalize limbRound h = g at first
  constructor <;> simp only [limbRound, and_mask44, and_mask42, Nat.shiftRight_eq_div_pow] <;> omega

theorem limbRound_modEq (h : Limbs) : (limbRound h).value ≡ h.value [MOD polyP] := by
  obtain ⟨q, hq⟩ := limbRound_value h
  rw [hq, ← polyP_eq]
  simp [Nat.ModEq]

theorem limbSelect_zero {h : Nat} (hh : h < 2 ^ 64) (g : Nat) : limbSelect 0 h g = h := by
  rw [limbSelect, Nat.and_zero, Nat.or_zero, Nat.sub_zero, Nat.and_two_pow_sub_one_eq_mod, Nat.mod_eq_of_lt hh]

theorem limbSelect_ones (h : Nat) {g : Nat} (hg : g < 2 ^ 64) : limbSelect (2 ^ 64 - 1) h g = g := by
  rw [limbSelect, Nat.sub_self, Nat.and_zero, Nat.zero_or, Nat.and_two_pow_sub_one_eq_mod, Nat.mod_eq_of_lt hg]

/-- Below p the subtraction borrows, and the mask selects the limbs as they are. -/
theorem limbMask_of_lt {h : Limbs} (hh : h.Full) (hp : h.value < 2 ^ 130 - 5) : limbMask (limbMinusP h).l2 = 0 := by
  obtain ⟨h0, h1, h2⟩ := hh
  simp only [Limbs.value, limbMask, limbMinusP, Nat.shiftRight_eq_div_pow] at hp ⊢
  omega

/-- From p on it does not borrow, and the mask selects the difference. -/
theorem limbMask_of_ge {h : Limbs} (hh : h.Full) (hp : 2 ^ 130 - 5 ≤ h.value) :
    limbMask (limbMinusP h).l2 = 2 ^ 64 - 1 := by
  obtain ⟨h0, h1, h2⟩ := hh
  simp only [Limbs.value, limbMask, limbMinusP, Nat.shiftRight_eq_div_pow] at hp ⊢
  omega

theorem limbMinusP_of_ge {h : Limbs} (hh : h.Full) (hp : 2 ^ 130 - 5 ≤ h.value) :
    (limbMinusP h).Full ∧ (limbMinusP h).value = h.value - (2 ^ 130 - 5) := by
  obtain ⟨h0, h1, h2⟩ := hh
  simp only [Limbs.value] at hp
  refine ⟨⟨?_, ?_, ?_⟩, ?_⟩ <;>
    simp only [Limbs.value, limbMinusP, and_mask44, Nat.shiftRight_eq_div_pow] <;> omega

theorem limbBytes_toNat {h : Limbs} (hh : h.Full) : (limbBytes h).toNat = h.value % 2 ^ 128 := by
  obtain ⟨h0, h1, h2⟩ := hh
  have hlo := or_shiftLeft h.l0 h.l1 44 h0
  have hhi := or_shiftLeft (h.l1 / 2 ^ 20) h.l2 24 (by omega)
  rw [limbBytes, BitVec.toNat_append, ← Nat.shiftLeft_add_eq_or_of_lt (BitVec.isLt _), Nat.shiftLeft_eq,
    BitVec.toNat_ofNat, BitVec.toNat_ofNat, Nat.shiftRight_eq_div_pow, hlo, hhi, Limbs.value]
  omega

/-- The conditional subtraction of p, then the bytes: those of the canonical residue. -/
theorem limbFinalize_toNat {h : Limbs} (hh : h.Carried) :
    (limbFinalize h).toNat = h.value % polyP % 2 ^ 128 := by
  have hmod : (limbRound (limbRound h)).value % polyP = h.value % polyP :=
    (limbRound_modEq _).trans (limbRound_modEq h)
  have hfull := limbRound_twice_full hh
  rw [← hmod, limbFinalize]
  generalize limbRound (limbRound h) = x at hfull
  obtain ⟨x0, x1, x2⟩ := hfull.lt_word
  rw [polyP_eq]
  rcases lt_or_ge x.value (2 ^ 130 - 5) with hlt | hge
  · simp only [limbMask_of_lt hfull hlt]
    rw [limbSelect_zero x0, limbSelect_zero x1, limbSelect_zero x2, limbBytes_toNat hfull, Nat.mod_eq_of_lt hlt]
  · obtain ⟨hgfull, hgval⟩ := limbMinusP_of_ge hfull hge
    obtain ⟨g0, g1, g2⟩ := hgfull.lt_word
    have hsub : x.value - (2 ^ 130 - 5) < 2 ^ 130 - 5 := by
      have hx := hfull.value_lt
      omega
    simp only [limbMask_of_ge hfull hge]
    rw [limbSelect_ones _ g0, limbSelect_ones _ g1, limbSelect_ones _ g2, limbBytes_toNat hgfull, hgval,
      Nat.mod_eq_sub_mod hge, Nat.mod_eq_of_lt hsub]

/-! ## The obligations -/

/-- Settles O46: `fold` takes one chunk at a time, so it splits after any number of chunks. -/
theorem foldIsSequential : Obligations.FoldIsSequential := by
  intro r h
  refine ⟨fold_nil r h, fun c d hc => ?_, fun a b ha => ?_⟩
  · rw [fold_chunk_append hc]
    exact congrArg (fold r · d) (Fin.ext (foldChunk_val hc))
  · exact (fold_append b (a.length / 16) (by omega)).symm

/-- Settles O47: each case is the step of one chunk under multiplier zero or one, or the truncation of `finalize`. -/
theorem foldSpecialCases : Obligations.FoldSpecialCases := by
  refine ⟨fun h d hd => ?_, fun h c hc => fold_one_val hc, finalize_toNat, fun h hh => ?_, fun h c hc hsum => ?_,
    fun h c hc hsum => ?_⟩
  · rw [fold_zero hd]
    exact ⟨rfl, rfl⟩
  · apply BitVec.eq_of_toNat_eq
    rw [finalize_toNat, hh]
    rfl
  · apply Fin.ext
    rw [fold_one_val hc, hsum, Nat.mod_self]
    rfl
  · rw [fold_one_val hc, hsum]
    rfl

/-- Settles O49: the limbs stay carried and congruent to the residue, and the limb `finalize` of such limbs is canonical. -/
theorem limbFormAgreesWithResidueForm : Obligations.LimbFormAgreesWithResidueForm := by
  intro k cs
  obtain ⟨hcar, hval⟩ := foldl_limbUpdate k cs (h := 0) carried_zero rfl
  refine ⟨?_, fun c => ?_⟩
  · apply BitVec.eq_of_toNat_eq
    rw [limbFinalize_toNat hcar, finalize_toNat, hval, Nat.mod_eq_of_lt (Fin.isLt _)]
  · have hadd := limbAdd_lt hcar c
    obtain ⟨d0, d1, d2⟩ := limbProduct_lt hadd (limbKey_lt k)
    obtain ⟨a0, a1, a2⟩ := hadd
    simp only [Nat.shiftRight_eq_div_pow]
    omega

end Sys2Proof.Machine
end

section
/-! PROOFS of the family 44_combiner.md: the batch size only says when the digest buffer is folded, and padding hides zeros that the
absorbed length tells apart. -/

namespace Sys2Proof.Machine

open Sys2Proof

/-! ## Every batch size runs as batch size one (R182, R185, R186) -/

section Batches

variable {r : BitVec 128} {k : DerivedKey} {c : Comb}

/-- The digest buffer holds as many 32-byte digests as it counts (R46). -/
def Comb.Buffered (c : Comb) : Prop := c.work.dbuf.length = 32 * c.work.dcnt

theorem flush_buffered (r : BitVec 128) (c : Comb) : (flush r c).Buffered := rfl

theorem pushDigest_buffered (hc : c.Buffered) (x : Bytes) : (pushDigest k x c).Buffered := by
  unfold Comb.Buffered at *
  simp only [pushDigest, List.length_append, unpackBytes_length, hc]
  omega

theorem fullBlock_buffered (hc : c.Buffered) (b : Nat) (x : Bytes) : (fullBlock b r k x c).Buffered := by
  simp only [fullBlock]
  split
  · exact flush_buffered _ _
  · exact pushDigest_buffered hc x

@[simp] theorem flush_flush (r : BitVec 128) (c : Comb) : flush r (flush r c) = flush r c := by simp [flush]

/-- A digest is folded behind those in the buffer, whether these are folded with it or before it. -/
theorem flush_pushDigest (hc : c.Buffered) (x : Bytes) :
    flush r (pushDigest k x c) = flush r (pushDigest k x (flush r c)) := by
  have hlen : c.work.dbuf.length = 16 * (2 * c.work.dcnt) := by
    rw [hc]
    omega
  simp [flush, pushDigest, fold_append _ _ hlen]

theorem partialBlock_buffered (hc : c.Buffered) (x : Bytes) : (partialBlock k x c).Buffered :=
  pushDigest_buffered (c := ⟨c.h, { c.work with pbuf := padded x }⟩) hc _

theorem flush_partialBlock (hc : c.Buffered) (x : Bytes) :
    flush r (partialBlock k x c) = flush r (partialBlock k x (flush r c)) :=
  flush_pushDigest (c := ⟨c.h, { c.work with pbuf := padded x }⟩) hc _

/-- Under batch size one each block is folded at once. -/
theorem fullBlock_one_flush (x : Bytes) : fullBlock 1 r k x (flush r c) = flush r (pushDigest k x (flush r c)) := rfl

/-- A full block under any batch size, with the buffer folded around it, is one under batch size one. -/
theorem flush_fullBlock (hc : c.Buffered) (b : Nat) (x : Bytes) :
    flush r (fullBlock b r k x c) = fullBlock 1 r k x (flush r c) := by
  rw [fullBlock_one_flush, ← flush_pushDigest hc]
  simp only [fullBlock]
  split
  · exact flush_flush r _
  · rfl

/-- What follows the full blocks cannot tell the batch size, when it cannot tell whether the buffer has been folded. -/
theorem fullBlocks_bind {α : Type} {f : Comb → Got α} (hf : ∀ c : Comb, c.Buffered → f c = f (flush r c))
    (rd : Nat → Nat → Got Bytes) (b n a : Nat) (hc : c.Buffered) :
    (fullBlocks rd b r k n a c).bind f = (fullBlocks rd 1 r k n a (flush r c)).bind f := by
  induction n generalizing a c with
  | zero => exact hf c hc
  | succ n ih =>
    simp only [fullBlocks, Got.bind_assoc]
    congr 1
    funext x
    rw [ih _ (fullBlock_buffered hc b x), flush_fullBlock hc]

/-- The final flush folds what the buffer holds, which is nothing when it counts no digest (R185). -/
theorem finalFlush_eq_flush (hc : c.Buffered) : finalFlush r c = flush r c := by
  unfold finalFlush
  split
  · rfl
  next hn =>
    have hcnt : c.work.dcnt = 0 := by omega
    have hbuf : c.work.dbuf = [] := List.eq_nil_of_length_eq_zero (by rw [hc, hcnt])
    obtain ⟨_, _, dbuf, dcnt, _, _⟩ := c
    cases hcnt
    cases hbuf
    simp [flush]

/-- The final partial block and the final flush cannot tell whether the buffer has been folded before (R184, R185). -/
theorem lastBlock_finalFlush (rd : Nat → Nat → Got Bytes) (a n : Nat) (hc : c.Buffered) :
    ((lastBlock rd k a n c).bind fun c' => .data (finalFlush r c')) =
      (lastBlock rd k a n (flush r c)).bind fun c' => .data (finalFlush r c') := by
  unfold lastBlock
  split
  · simp only [Got.bind_assoc, Got.bind_data]
    congr 1
    funext x
    rw [finalFlush_eq_flush (partialBlock_buffered hc x), flush_partialBlock hc,
      finalFlush_eq_flush (partialBlock_buffered (flush_buffered r c) x)]
  · simp only [Got.bind_data, finalFlush_eq_flush hc, finalFlush_eq_flush (flush_buffered r c), flush_flush]

/-- A run under any batch size is the run under batch size one. -/
theorem combineRun_eq_one (rd : Nat → Nat → Got Bytes) (b : Nat) (r : BitVec 128) (k : DerivedKey) (a len : Nat)
    (hc : c.Buffered) : combineRun rd b r k a len c = combineRun rd 1 r k a len (flush r c) :=
  fullBlocks_bind (fun _ => lastBlock_finalFlush rd _ _) rd b _ _ hc

end Batches

/-! ## The digests of a message by its final block (R184, R187) -/

section Padding

variable {a t : Bytes}

theorem ceil16_of_mod {x : Nat} (h : x % 16 = 0) : ceil16 x = x := by
  unfold ceil16
  omega

theorem padded_of_mod (ht : t.length % 16 = 0) : padded t = t := by
  simp [padded, ceil16_of_mod ht]

/-- Zeros up to the next 16-byte boundary are those that the padding puts there (R184). -/
theorem padded_append_zeros {j : Nat} (hj : t.length + j ≤ ceil16 t.length) :
    padded (t ++ List.replicate j 0) = padded t := by
  have hceil : ceil16 (t.length + j) = ceil16 t.length := by
    unfold ceil16 at *
    omega
  rw [padded, padded, List.length_append, List.length_replicate, hceil, List.append_assoc, List.replicate_append_replicate]
  congr 2
  omega

/-- The digests of the blocks inside a first part do not depend on what follows it. -/
theorem blockDigests_append (k : DerivedKey) (t : Bytes) {n : Nat} (hn : nhBlockBytes * n ≤ a.length) :
    ((List.range n).flatMap fun b => digestBytes k (slice (a ++ t) (nhBlockBytes * b) nhBlockBytes)) =
      (List.range n).flatMap fun b => digestBytes k (slice a (nhBlockBytes * b) nhBlockBytes) := by
  refine List.flatMap_congr fun b hb => ?_
  have hb : b + 1 ≤ n := List.mem_range.mp hb
  have hfit : nhBlockBytes * b + nhBlockBytes ≤ a.length := (Nat.mul_le_mul_left _ hb).trans hn
  rw [slice_append_left _ _ _ _ hfit]

/-- Behind whole blocks, a final block of 1 to 1024 bytes adds the digest of its padded bytes, be it partial or full. -/
theorem digests_append (k : DerivedKey) {n : Nat} (ha : a.length = nhBlockBytes * n) (ht : 0 < t.length)
    (ht' : t.length ≤ nhBlockBytes) :
    fullDigests k (a ++ t) ++ lastDigest k (a ++ t) = fullDigests k a ++ digestBytes k (padded t) := by
  have hB : nhBlockBytes = 1024 := rfl
  have hna : a.length / nhBlockBytes = n := by
    rw [ha]
    exact Nat.mul_div_cancel_left n (by decide)
  have hblocks := blockDigests_append k t ha.ge
  rcases ht'.eq_or_lt with hfull | hpart
  · have hlen : (a ++ t).length = nhBlockBytes * (n + 1) := by rw [List.length_append, ha, hfull, Nat.mul_succ]
    have hn : (a ++ t).length / nhBlockBytes = n + 1 := by
      rw [hlen]
      exact Nat.mul_div_cancel_left _ (by decide)
    have hslice : slice (a ++ t) (nhBlockBytes * n) nhBlockBytes = t := by
      rw [slice, ← ha, List.drop_left, ← hfull, List.take_length]
    have hlast : lastBytes (a ++ t) = [] := by
      rw [lastBytes, hn]
      exact List.drop_of_length_le hlen.le
    rw [lastDigest, if_pos hlast, List.append_nil, fullDigests, hn, fullDigests, hna, List.range_succ, List.flatMap_append,
      hblocks, List.flatMap_singleton, hslice, padded_of_mod (by omega)]
  · have hn : (a ++ t).length / nhBlockBytes = n := by
      rw [List.length_append, ha, Nat.mul_add_div (by decide), Nat.div_eq_of_lt hpart, Nat.add_zero]
    have hlast : lastBytes (a ++ t) = t := by rw [lastBytes, hn, ← ha, List.drop_left]
    rw [lastDigest, hlast, if_neg (List.ne_nil_of_length_pos ht), fullDigests, hn, fullDigests, hna, hblocks]

/-- Zeros that stay below the next 16-byte boundary of the final block do not change the digest (R190). -/
theorem polyDigest_append_zeros (k : DerivedKey) {n j : Nat} (ha : a.length = nhBlockBytes * n) (ht : 0 < t.length)
    (ht' : t.length ≤ nhBlockBytes) (hj : t.length + j ≤ ceil16 t.length) :
    polyDigest k (a ++ t ++ List.replicate j 0) = polyDigest k (a ++ t) := by
  have hB : nhBlockBytes = 1024 := rfl
  have hlen : (t ++ List.replicate j 0).length = t.length + j := by simp
  have hle : t.length + j ≤ nhBlockBytes := by
    unfold ceil16 at hj
    omega
  rw [polyDigest, polyResidue, List.append_assoc, digests_append k ha (by omega) (by omega), padded_append_zeros hj,
    ← digests_append k ha ht ht', polyDigest, polyResidue]

end Padding

/-- Two lengths that fit in their bytes are written differently (R9). -/
theorem leBytes_ne {n v w : Nat} (hv : v < 2 ^ (8 * n)) (hw : w < 2 ^ (8 * n)) (h : v ≠ w) :
    leBytes n v ≠ leBytes n w := by
  intro he
  have hval := congrArg leNat he
  rw [leNat_leBytes, leNat_leBytes, Nat.mod_eq_of_lt hv, Nat.mod_eq_of_lt hw] at hval
  exact h hval

/-! ## The obligations -/

/-- Settles O50: a run under either batch size is the run under batch size one. -/
theorem batchSizeDoesNotMatter : Obligations.BatchSizeDoesNotMatter := by
  intro rd b b' r k a len v _ _ _ _
  have hempty : Comb.Buffered ⟨0, { Work.none with vecSel := v }⟩ := rfl
  rw [combineRun_eq_one rd b r k a len hempty, combineRun_eq_one rd b' r k a len hempty]

/-- Settles O51: both messages have the same padded final block, which is a full one when the zeros reach the block's end. -/
theorem paddingHidesTrailingZeros : Obligations.PaddingHidesTrailingZeros := by
  intro k m j hr hr16 hj hj'
  have hB : nhBlockBytes = 1024 := rfl
  have htake : (m.take (nhBlockBytes * (m.length / nhBlockBytes))).length = nhBlockBytes * (m.length / nhBlockBytes) :=
    List.length_take_of_le (Nat.mul_div_le _ _)
  have hlast : (lastBytes m).length = m.length % 1024 := by
    rw [lastBytes, List.length_drop]
    exact (Nat.mod_eq_sub_mul_div ..).symm
  have hfit : (lastBytes m).length + j ≤ ceil16 (lastBytes m).length := by
    unfold ceil16
    omega
  refine ⟨?_, fun hlen => leBytes_ne hlen (by omega) (by omega)⟩
  have hdigest := polyDigest_append_zeros k htake (t := lastBytes m) (by omega) (by omega) hfit
  rwa [lastBytes, List.take_append_drop] at hdigest

end Sys2Proof.Machine
end

section
/-! PROOFS of the family 60_exceptions.md: the order of a reset, a completion and a host write in one step. -/

namespace Sys2Proof.Machine

open Sys2Proof

variable {s t : State} {v : Word}

/-! ## The step that the engine shares with a write to the window (R229) -/

/-- A soft reset leaves nothing of the engine's answer, whatever that answer is. -/
theorem engineThenWrite_softReset (h31 : v.getLsbD 31 = true) (s : State) :
    engineThenWrite (s.cfg.regBase + 0x008) 32 v s = .next (resetBlock s) := by
  have hw : windowOffset s.cfg (s.cfg.regBase + 0x008) 32 = some 0x008 := windowOffset_aligned _ (by decide) (by decide)
  have hreset : hostWrite (s.cfg.regBase + 0x008) 32 v s = .next (resetBlock s) := by
    rw [hostWrite_aligned s v (by decide) (by decide), writeOffset_ctrl, writeCtrl_softReset h31]
  exact engineThenWrite_next.mpr (.inl ⟨isSoftReset_iff.mpr ⟨hw, h31⟩, hreset⟩)

/-- A write to any register but `CTRL` finds the state that the engine's step leaves. -/
theorem engineThenWrite_aligned {off : Nat} (ho : off < 256) (ha : off % 4 = 0) (hne : off ≠ 0x008)
    (he : engineStep s = .next t) (v : Word) :
    engineThenWrite (s.cfg.regBase + off) 32 v s = .next (writeOffset off v t) := by
  have hr : isSoftReset s.cfg (s.cfg.regBase + off) 32 v = false := by
    simp [isSoftReset, windowOffset_aligned _ ho ha, regOffset, hne]
  rw [engineThenWrite_of_engineStep hr he, ← engineStep_cfg he, hostWrite_aligned t v ho ha]

/-! ## The obligation -/

/-- Settles O8: a soft reset is the hardware reset of the state before the step, and any other write comes after the engine, so a
`CMD` write finds the block idle. -/
theorem sameStepEventsAreOrdered : Obligations.SameStepEventsAreOrdered := by
  refine ⟨fun s v h31 => engineThenWrite_softReset h31 s, fun s t v he => ⟨?_, fun hidle => ?_⟩⟩
  · exact engineThenWrite_aligned (by decide) (by decide) (by decide) he v
  · calc engineThenWrite (s.cfg.regBase + 0x010) 32 v s
        = .next (writeOffset 0x010 v t) := engineThenWrite_aligned (by decide) (by decide) (by decide) he v
      _ = .next (writeCmd v t) := by rw [writeOffset_of_regAt (g := .cmd) rfl, writeReg]
      _ = .next (accept v t) := by rw [writeCmd_idle hidle]

end Sys2Proof.Machine
end

section
/-! PROOFS of the family 70_reset_and_hazards.md: the soft reset. -/

namespace Sys2Proof.Machine

open Sys2Proof

/-! ## The soft reset is the hardware reset (R262) -/

theorem runEvent_hwReset (s : State) : runEvent .hwReset s = .next (resetBlock s) := rfl

/-- A `CTRL` write with bit 31 set leaves the reset block, whatever its other bits are. -/
theorem hostWrite_softReset {v : Word} (h31 : v.getLsbD 31 = true) (s : State) :
    hostWrite (s.cfg.regBase + 0x008) 32 v s = .next (resetBlock s) := by
  rw [hostWrite_aligned s v (by decide) (by decide), writeOffset_ctrl, writeCtrl_softReset h31]

/-! ## What a reset leaves (R260, R263) -/

/-- After a reset `CTRL` reads 0: its three fields do. -/
theorem ctrlWord_resetBlock (s : State) : ctrlWord (resetBlock s) = 0 :=
  BitVec.eq_of_toNat_eq (ctrlWord_toNat (resetBlock s))

/-- A reset reaches neither host memory nor the ports, the host's record of its last read or the inputs still to come. -/
theorem resetBlock_sameOutside (s : State) : SameOutside s (resetBlock s) :=
  ⟨⟨resetBlock_mem s, fun a => congrArg (·.get a) (resetBlock_mem s)⟩, resetBlock_xofPort s, resetBlock_kmacPort s,
    resetBlock_rdata s, resetBlock_inputs s⟩

/-! ## The obligation -/

/-- Settles O15: the write and the hardware reset both answer `resetBlock s`, whose fields are those of `State.reset` inside the
block and those of `s` outside it. -/
theorem softResetClearsTheBlock : Obligations.SoftResetClearsTheBlock := by
  intro s v h31
  refine ⟨resetBlock s, hostWrite_softReset h31 s, runEvent_hwReset s, resetBlock_fsm s, resetBlock_status s, ?_,
    resetBlock_opnd s, resetBlock_errAddr s, resetBlock_nhd s, resetBlock_pd s, resetBlock_hd s, resetBlock_raced s,
    resetBlock_sameOutside s, resetBlock_cfg s⟩
  rw [readOffset_ctrl, ctrlWord_resetBlock]

end Sys2Proof.Machine
end

section
/-! PROOFS of the family other: the command word, the invariant of the machine, the arithmetic of the digests, and what each command
does when it succeeds, fails or waits. -/

namespace Sys2Proof.Machine

open Sys2Proof

variable {s t u : State}

/-! ## The command word and its fields (R80 to R83) -/

/-- The number of two bit strings side by side. -/
theorem append_toNat {m n : Nat} (x : BitVec m) (y : BitVec n) : (x ++ y).toNat = x.toNat * 2 ^ n + y.toNat := by
  rw [BitVec.toNat_append, ← Nat.shiftLeft_add_eq_or_of_lt y.isLt, Nat.shiftLeft_eq]

theorem opField_append (rsv : BitVec 16) (arg op : Byte) : opField (rsv ++ arg ++ op) = op := by
  have ho := op.isLt
  apply BitVec.eq_of_toNat_eq
  simp only [opField_toNat, append_toNat]
  omega

theorem argField_append (rsv : BitVec 16) (arg op : Byte) : argField (rsv ++ arg ++ op) = arg := by
  have ha := arg.isLt
  have ho := op.isLt
  apply BitVec.eq_of_toNat_eq
  simp only [argField_toNat, append_toNat]
  omega

theorem rsvField_append (rsv : BitVec 16) (arg op : Byte) : rsvField (rsv ++ arg ++ op) = rsv := by
  have ha := arg.isLt
  have ho := op.isLt
  apply BitVec.eq_of_toNat_eq
  simp only [rsvField_toNat, append_toNat]
  omega

/-- A word is its three fields side by side (R80). -/
theorem fields_append (w : Word) : rsvField w ++ argField w ++ opField w = w := commandWord_latch w State.reset

/-- The opcode map, read both ways: a pair of fields decodes to exactly the well-formed command that has them (R81, R83). -/
theorem decodeOp_ok {op arg : Byte} {i : Instr} :
    decodeOp op arg = .ok i ↔ i.wellFormed = true ∧ i.opcode = op ∧ i.arg = arg := by
  constructor
  · intro h
    unfold decodeOp at h
    split at h
    case h_5 =>
      cases h
      exact ⟨decide_eq_true arg.isLt, rfl, by simp [Instr.arg]⟩
    case h_12 => cases h
    all_goals
      obtain ⟨rfl, rfl⟩ := plainCommand_ok.mp h
      exact ⟨rfl, rfl, rfl⟩
  · rintro ⟨hw, rfl, rfl⟩
    cases i with
    | nh n =>
      have hn : n < 256 := of_decide_eq_true hw
      have harg : (Instr.nh n).arg.toNat = n := Nat.mod_eq_of_lt hn
      exact congrArg (fun m => Except.ok (Instr.nh m)) harg
    | _ => rfl

theorem decode_ok {w : Word} {i : Instr} :
    decode w = .ok i ↔ rsvField w = 0 ∧ decodeOp (opField w) (argField w) = .ok i := by
  unfold decode
  split
  next h => exact (and_iff_right h).symm
  next h => exact iff_of_false (by simp) fun hc => h hc.1

/-- Settles O1: the fields of the word are those of the command, and the opcode map takes them back to it. -/
theorem decodeOfEncodeIsTheCommand : Obligations.DecodeOfEncodeIsTheCommand := by
  intro i hw
  rw [decode_ok, encode, rsvField_append, opField_append, argField_append, decodeOp_ok]
  exact ⟨rfl, hw, rfl, rfl⟩

/-- Settles O2: the decoded command has the fields of the word, and a word is its fields. -/
theorem encodeOfDecodeIsTheWord : Obligations.EncodeOfDecodeIsTheWord := by
  intro w i h
  obtain ⟨hr, hd⟩ := decode_ok.mp h
  obtain ⟨hw, hop, harg⟩ := decodeOp_ok.mp hd
  refine ⟨hw, ?_⟩
  rw [encode, hop, harg, ← hr, fields_append]

/-- Settles O5: the engine's move decodes the latched word, and a word that was just accepted is latched whole. -/
theorem stepRunsTheDecodedCommand : Obligations.StepRunsTheDecodedCommand := by
  intro s i
  refine ⟨fun hb hd => ⟨fun hin => ?_, fun es hin => ?_⟩, fun hw => ?_⟩
  · rw [step, runNext, hin]
    exact engineStep_busy hb hd
  · rw [step, runNext, hin]
    exact engineStep_busy (s := popInput es s) hb hd
  · have hword : BitVec.ofNat 32 ((encode i).toNat % 2 ^ 32) = encode i := by
      rw [Nat.mod_eq_of_lt (encode i).isLt, BitVec.ofNat_toNat, BitVec.setWidth_eq]
    have hd : decode (commandWord (accept (encode i) s).lat) = .ok i := by
      rw [accept_lat, commandWord_latch]
      exact decodeOfEncodeIsTheCommand i hw
    rw [State.withFetchWord, hword]
    exact engineStep_busy (s := accept (encode i) s) rfl hd

/-! ## NH, lane by lane (R142, R143, R145, R147) -/

section Nh

variable {k k' : DerivedKey} {msg : Bytes} {a : NhAcc} {i n : Nat}

/-- The sum of pass `i` (R45). -/
def NhAcc.lane (a : NhAcc) : Nat → DWord
  | 0 => a.s0
  | 1 => a.s1
  | 2 => a.s2
  | _ => a.s3

theorem lane_addLanes (f : Nat → DWord) (d : Nat) (a : NhAcc) (hi : i < 4) :
    (addLanes f d a).lane i = a.lane i + f i := by
  interval_cases i <;> rfl

theorem addLanes_congr {f g : Nat → DWord} (h : ∀ i < 4, f i = g i) (d : Nat) (a : NhAcc) :
    addLanes f d a = addLanes g d a := by
  simp only [addLanes, h 0 (by decide), h 1 (by decide), h 2 (by decide), h 3 (by decide)]

/-- A unit adds the sum of its two products to each lane, in whatever order the two are added. -/
theorem nhUnit_eq_addLanes (k : DerivedKey) (msg : Bytes) (a : NhAcc) :
    nhUnit k msg a = addLanes (laneTerm k msg a.unit) 1 a := by
  simp only [nhUnit, nhPass, addLanes, laneTerm, BitVec.add_assoc]

theorem nhUnits_add (k : DerivedKey) (msg : Bytes) (m n : Nat) (a : NhAcc) :
    nhUnits k msg (m + n) a = nhUnits k msg n (nhUnits k msg m a) := by
  induction m generalizing a with
  | zero => rw [Nat.zero_add, nhUnits]
  | succ m ih => rw [Nat.succ_add, nhUnits, nhUnits, ih]

/-- One vector iteration is four units (R147). -/
theorem addLanes_laneSum (k : DerivedKey) (msg : Bytes) (a : NhAcc) :
    addLanes (laneSum k msg a.unit) 4 a = nhUnits k msg 4 a := by
  simp only [nhUnits, nhUnit_eq_addLanes, addLanes, laneSum, BitVec.add_assoc, Nat.add_assoc]

theorem vecIterations_eq (k : DerivedKey) (msg : Bytes) (q : Nat) (a : NhAcc) :
    vecIterations k msg q a = nhUnits k msg (4 * q) a := by
  induction q generalizing a with
  | zero => rfl
  | succ q ih => rw [vecIterations, ih, addLanes_laneSum, ← nhUnits_add, Nat.mul_succ, Nat.add_comm]

theorem vecTail_eq (k : DerivedKey) (msg : Bytes) (n : Nat) (a : NhAcc) :
    vecTail k msg n a = nhUnits k msg n a := by
  induction n generalizing a with
  | zero => rfl
  | succ n ih => rw [vecTail, nhUnits, ih, nhUnit_eq_addLanes]

/-- The vector iterations and the tail are the units in order. -/
theorem nhVector_eq (k : DerivedKey) (msg : Bytes) (n : Nat) (a : NhAcc) :
    nhVector k msg n a = nhUnits k msg n a := by
  rw [nhVector, vecTail_eq, vecIterations_eq, ← nhUnits_add, Nat.div_add_mod]

/-- Both datapaths end in the same sums. -/
theorem nhEval_eq (v : Bool) (k : DerivedKey) (msg : Bytes) :
    nhEval v k msg = nhUnits k msg (msg.length / 16) NhAcc.zero := by
  cases v
  · rfl
  · exact nhVector_eq _ _ _ _

theorem nhDigest_nhEval (v : Bool) (k : DerivedKey) (msg : Bytes) : nhDigest (nhEval v k msg) = nhHash k msg := by
  rw [nhEval_eq, nhHash]

theorem nhUnits_succ (k : DerivedKey) (msg : Bytes) (n : Nat) (a : NhAcc) :
    nhUnits k msg (n + 1) a = nhUnit k msg (nhUnits k msg n a) := nhUnits_add k msg n 1 a

theorem nhUnits_unit (k : DerivedKey) (msg : Bytes) (n : Nat) (a : NhAcc) : (nhUnits k msg n a).unit = a.unit + n := by
  induction n with
  | zero => rfl
  | succ n ih => rw [nhUnits_succ, nhUnit, ih, Nat.add_assoc]

/-- After `n` units each lane has gained the terms of these units (R142). -/
theorem nhUnits_lane (k : DerivedKey) (msg : Bytes) (n : Nat) (a : NhAcc) (hi : i < 4) :
    ((nhUnits k msg n a).lane i).toNat =
      ((a.lane i).toNat + ((List.range n).map fun u => (laneTerm k msg (a.unit + u) i).toNat).sum) % 2 ^ 64 := by
  induction n with
  | zero => simp [nhUnits, Nat.mod_eq_of_lt (BitVec.isLt _)]
  | succ n ih =>
    rw [nhUnits_succ, nhUnit_eq_addLanes, lane_addLanes _ _ _ hi, BitVec.toNat_add, ih, nhUnits_unit, Nat.mod_add_mod,
      List.range_succ, List.map_append, List.sum_append, ← Nat.add_assoc]
    rfl

theorem nhProduct_toNat (m k m' k' : Word) :
    (nhProduct m k m' k').toNat = ((m.toNat + k.toNat) % 2 ^ 32) * ((m'.toNat + k'.toNat) % 2 ^ 32) := by
  have hlt : ((m.toNat + k.toNat) % 2 ^ 32) * ((m'.toNat + k'.toNat) % 2 ^ 32) < 2 ^ 32 * 2 ^ 32 :=
    Nat.mul_lt_mul'' (Nat.mod_lt _ (by decide)) (Nat.mod_lt _ (by decide))
  have hmod : ∀ x, x % 2 ^ 32 % 2 ^ 64 = x % 2 ^ 32 := fun x => by omega
  simp only [nhProduct, BitVec.toNat_mul, BitVec.toNat_setWidth, BitVec.toNat_add, hmod]
  exact Nat.mod_eq_of_lt hlt

/-- Lane `i` of the digest is its bytes `8i .. 8i+7` (R145). -/
theorem nhDigest_lane (a : NhAcc) (hi : i < 4) : (nhDigest a).toNat / 2 ^ (64 * i) % 2 ^ 64 = (a.lane i).toNat := by
  have h0 := a.s0.isLt
  have h1 := a.s1.isLt
  have h2 := a.s2.isLt
  have h3 := a.s3.isLt
  simp only [nhDigest, append_toNat]
  interval_cases i <;> simp only [NhAcc.lane] <;> omega

/-- The terms of `n` units read no key word from `4 n + 12` on (R148). -/
theorem nhUnits_congr (hk : ∀ w < 4 * (a.unit + n) + 12, nhKey k w = nhKey k' w) :
    nhUnits k msg n a = nhUnits k' msg n a := by
  induction n generalizing a with
  | zero => rfl
  | succ n ih =>
    have hterm : ∀ i < 4, laneTerm k msg a.unit i = laneTerm k' msg a.unit i := by
      intro i hi
      simp only [laneTerm, nhEven, nhOdd]
      rw [hk _ (by omega), hk _ (by omega), hk _ (by omega), hk _ (by omega)]
    rw [nhUnits, nhUnits, nhUnit_eq_addLanes, nhUnit_eq_addLanes, addLanes_congr hterm]
    exact ih fun w hw => hk w (by simp only [addLanes] at hw; omega)

end Nh

/-- Settles O30: the digest holds the lanes, each lane gains the terms of the units, and a term is its two products. -/
theorem nhSumsFollowTheFormula : Obligations.NhSumsFollowTheFormula := by
  intro k msg n i hlen hi
  have hn : msg.length / 16 = n := by omega
  have hzero : (NhAcc.zero.lane i).toNat = 0 := by interval_cases i <;> rfl
  rw [nhHash, nhDigest_lane _ hi, hn, nhUnits_lane _ _ _ _ hi, hzero, Nat.zero_add]
  simp only [laneTerm, nhEven, nhOdd, BitVec.toNat_add, nhProduct_toNat, NhAcc.zero, Nat.zero_add]
  conv_rhs => rw [List.sum_nat_mod, List.map_map]
  rfl

/-- Settles O45: unit `u` reads the sixteen words from `4u` on. -/
theorem nhReadsOnlyItsKeyWords : Obligations.NhReadsOnlyItsKeyWords := by
  intro k k' msg hk
  have hunits : nhUnits k msg (msg.length / 16) NhAcc.zero = nhUnits k' msg (msg.length / 16) NhAcc.zero :=
    nhUnits_congr fun w hw => hk w (by simpa [NhAcc.zero] using hw)
  rw [nhHash, nhHash, hunits]

/-- The clamp mask has no bit from 124 on. -/
theorem clamp_lt (k : Str16) : (clamp k).toNat < 2 ^ 124 := by
  rw [clamp, BitVec.toNat_and]
  exact lt_of_le_of_lt Nat.and_le_right (by decide)

/-- Settles O48: the value of the limbs is the clamped key, which the mask keeps small. -/
theorem clampLimbsAreTheClampedKey : Obligations.ClampLimbsAreTheClampedKey := fun k => ⟨limbKey_value k, clamp_lt k⟩

/-! ## Byte strings of fixed length and their parts (R9, R60) -/

section FixedBytes

variable {w : Nat}

theorem leBytes_drop (n v o : Nat) : (leBytes n v).drop o = leBytes (n - o) (v / 2 ^ (8 * o)) := by
  induction o generalizing n v with
  | zero => simp
  | succ o ih =>
    cases n with
    | zero => simp [leBytes]
    | succ n =>
      rw [leBytes, List.drop_succ_cons, ih, Nat.div_div_eq_div_mul, Nat.add_sub_add_right, Nat.mul_succ, Nat.pow_add,
        Nat.mul_comm 256]

theorem leBytes_take (n v m : Nat) (h : m ≤ n) : (leBytes n v).take m = leBytes m v := by
  induction m generalizing n v with
  | zero => rfl
  | succ m ih =>
    obtain ⟨n, rfl⟩ : ∃ n', n = n' + 1 := ⟨n - 1, by omega⟩
    rw [leBytes, List.take_succ_cons, ih _ _ (by omega), leBytes]

/-- Only the low `n` bytes of a number are written. -/
theorem leBytes_mod (n v : Nat) : leBytes n (v % 2 ^ (8 * n)) = leBytes n v := by
  have h := leBytes_leNat (leBytes n v)
  rwa [leBytes_length, leNat_leBytes] at h

/-- A slice of the bytes of a string is the bytes there. -/
theorem slice_unpackBytes (v : BitVec w) {n o m : Nat} (h : o + m ≤ n) :
    slice (unpackBytes v 0 n) o m = unpackBytes v o m := by
  simp only [slice, unpackBytes, leBytes_drop, Nat.mul_zero, Nat.pow_zero, Nat.div_one]
  exact leBytes_take _ _ _ (by omega)

/-- The bytes of a part of a string are the string's bytes there. -/
theorem unpackBytes_extractLsb' (v : BitVec w) (o n : Nat) :
    unpackBytes (v.extractLsb' (8 * o) (8 * n)) 0 n = unpackBytes v o n := by
  simp only [unpackBytes, BitVec.extractLsb'_toNat, Nat.shiftRight_eq_div_pow, Nat.mul_zero, Nat.pow_zero, Nat.div_one]
  exact leBytes_mod _ _

/-- Four bytes of a string, little-endian, are its 32 bits there (R9). -/
theorem le32_unpackBytes (v : BitVec w) {n o : Nat} (h : o + 4 ≤ n) :
    le32 (unpackBytes v 0 n) o = v.extractLsb' (8 * o) 32 := by
  apply BitVec.eq_of_toNat_eq
  rw [le32, slice_unpackBytes v h, unpackBytes, leNat_leBytes, BitVec.extractLsb'_toNat, BitVec.toNat_ofNat,
    Nat.shiftRight_eq_div_pow]
  exact Nat.mod_mod _ _

/-- The bytes of a part of a string, as a number (R9). -/
theorem leNat_unpackBytes (v : BitVec w) (o n : Nat) :
    leNat (unpackBytes v o n) = v.toNat / 2 ^ (8 * o) % 2 ^ (8 * n) := by
  rw [unpackBytes, leNat_leBytes]

end FixedBytes

/-! ## The combiner is one read of the message and the closed form (R182 to R187) -/

section Combiner

variable {r : BitVec 128} {k : DerivedKey} {c : Comb} {α β : Type}

/-- What follows a read may use that it is the read's data. -/
theorem Got.bind_congr {g : Got α} {f f' : α → Got β} (h : ∀ x, g = .data x → f x = f' x) : g.bind f = g.bind f' := by
  cases g with
  | data x => exact h x rfl
  | fault _ | silent => rfl

/-- The digest buffer is empty (R185). -/
def Comb.Flushed (c : Comb) : Prop := c.work.dbuf = [] ∧ c.work.dcnt = 0

theorem flush_flushed (r : BitVec 128) (c : Comb) : (flush r c).Flushed := ⟨rfl, rfl⟩

/-- With an empty buffer, a digest that is pushed and folded is all that the accumulator gains, whichever datapath runs. -/
theorem flush_pushDigest_h (hc : c.Flushed) (x : Bytes) :
    (flush r (pushDigest k x c)).h = fold r c.h (digestBytes k x) := by
  simp only [flush, pushDigest, hc.1, List.nil_append, nhDigest_nhEval, digestBytes]

theorem fullBlock_one (hc : c.Flushed) (x : Bytes) : fullBlock 1 r k x c = flush r (pushDigest k x c) := by
  simp [fullBlock, pushDigest, hc.2]

/-- The digests of the first `n` blocks of a message, in order (R187). -/
def blockDigests (k : DerivedKey) (n : Nat) (msg : Bytes) : Bytes :=
  (List.range n).flatMap fun b => digestBytes k (slice msg (nhBlockBytes * b) nhBlockBytes)

theorem fullDigests_eq (k : DerivedKey) (msg : Bytes) :
    fullDigests k msg = blockDigests k (msg.length / nhBlockBytes) msg := rfl

theorem digestBytes_length (k : DerivedKey) (x : Bytes) : (digestBytes k x).length = 32 := unpackBytes_length _ _ _

theorem blockDigests_length (k : DerivedKey) (n : Nat) (msg : Bytes) : (blockDigests k n msg).length = 32 * n := by
  simp [blockDigests, List.length_flatMap, digestBytes_length, Nat.mul_comm]

/-- The first block's digest comes first. -/
theorem blockDigests_succ (k : DerivedKey) (n : Nat) {x : Bytes} (y : Bytes) (hx : x.length = nhBlockBytes) :
    blockDigests k (n + 1) (x ++ y) = digestBytes k x ++ blockDigests k n y := by
  have hfirst : slice (x ++ y) 0 nhBlockBytes = x := List.take_left' hx
  have hrest : ∀ b, slice (x ++ y) (nhBlockBytes * (b + 1)) nhBlockBytes = slice y (nhBlockBytes * b) nhBlockBytes := by
    intro b
    rw [slice, Nat.mul_succ, Nat.add_comm, ← List.drop_drop, List.drop_left' hx, slice]
  rw [blockDigests, List.range_succ_eq_map, List.flatMap_cons, List.flatMap_map]
  simp only [Nat.mul_zero, hfirst, Nat.succ_eq_add_one, hrest, blockDigests]

/-- The full blocks under batch size one: one read of them all, whose digests are folded in order. -/
theorem fullBlocks_one_bind {F : Comb → Got β} {G : Fin polyP → Got β} (hF : ∀ c : Comb, c.Flushed → F c = G c.h)
    (bus : Nat → Got Byte) (n a : Nat) (hc : c.Flushed) :
    (fullBlocks (readBytes bus) 1 r k n a c).bind F =
      (readBytes bus a (nhBlockBytes * n)).bind fun x => G (fold r c.h (blockDigests k n x)) := by
  induction n generalizing a c with
  | zero => simp [fullBlocks, hF c hc, blockDigests]
  | succ n ih =>
    have hlen : nhBlockBytes * (n + 1) = nhBlockBytes + nhBlockBytes * n := by rw [Nat.mul_succ, Nat.add_comm]
    rw [fullBlocks, hlen, readBytes_add]
    simp only [Got.bind_assoc, Got.bind_data]
    refine Got.bind_congr fun x hx => ?_
    have hx := readBytes_length hx
    rw [fullBlock_one hc, ih _ (flush_flushed _ _), flush_pushDigest_h hc]
    refine Got.bind_congr fun y _ => ?_
    rw [blockDigests_succ k n y hx, fold_append _ 2 (digestBytes_length k x)]

/-- The digest of the bytes behind the full blocks, none when there are none (R184, R187). -/
def tailDigest (k : DerivedKey) (y : Bytes) : Bytes := if y = [] then [] else digestBytes k (padded y)

theorem lastDigest_eq (k : DerivedKey) (msg : Bytes) : lastDigest k msg = tailDigest k (lastBytes msg) := rfl

/-- The final partial block and the final flush fold the digest of the bytes that are left. -/
theorem lastBlock_finalFlush_h (bus : Nat → Got Byte) (a n : Nat) (hc : c.Flushed) :
    ((lastBlock (readBytes bus) k a n c).bind fun c' => .data (finalFlush r c').h) =
      (readBytes bus a n).bind fun y => .data (fold r c.h (tailDigest k y)) := by
  unfold lastBlock
  split
  case isTrue hn =>
    rw [Got.bind_assoc]
    refine Got.bind_congr fun y hy => ?_
    have hne : y ≠ [] := List.ne_nil_of_length_pos (readBytes_length hy ▸ hn)
    have hflush : finalFlush r (partialBlock k y c) = flush r (partialBlock k y c) := if_pos (Nat.succ_pos _)
    rw [Got.bind_data, hflush, tailDigest, if_neg hne]
    exact congrArg _ (flush_pushDigest_h (c := ⟨c.h, { c.work with pbuf := padded y }⟩) hc _)
  case isFalse hn =>
    obtain rfl : n = 0 := by omega
    have hflush : finalFlush r c = c := if_neg (by simp [hc.2])
    rw [Got.bind_data, hflush, readBytes_zero, Got.bind_data, tailDigest, if_pos rfl, fold_nil]

/-- Behind its full blocks a message has what its length leaves. -/
theorem digests_of_parts (k : DerivedKey) {len : Nat} {x y : Bytes} (hx : x.length = nhBlockBytes * (len / nhBlockBytes))
    (hy : y.length = len % nhBlockBytes) :
    blockDigests k (len / nhBlockBytes) x ++ tailDigest k y = fullDigests k (x ++ y) ++ lastDigest k (x ++ y) := by
  have hn : (x ++ y).length / nhBlockBytes = len / nhBlockBytes := by
    rw [List.length_append, hx, hy, Nat.div_add_mod]
  have hlast : lastBytes (x ++ y) = y := by rw [lastBytes, hn, ← hx, List.drop_left]
  rw [fullDigests_eq, lastDigest_eq, hn, hlast]
  exact congrArg (· ++ _) (blockDigests_append k y hx.ge).symm

/-- A run from the zero accumulator and an empty buffer ends in the closed form of the message it reads, for every batch size
and either datapath (R186, R187). -/
theorem combineRun_h (bus : Nat → Got Byte) (batch : Nat) (k : DerivedKey) (a len : Nat) (hc : c.Flushed) (hh : c.h = 0) :
    ((combineRun (readBytes bus) batch (clamp (polyKey k)) k a len c).bind fun c' => .data c'.h) =
      (readBytes bus a len).bind fun msg => .data (polyResidue k msg) := by
  have hbuf : c.Buffered := by rw [Comb.Buffered, hc.1, hc.2]; rfl
  have hzero : (flush (clamp (polyKey k)) c).h = 0 := by rw [flush, hc.1, fold_nil, hh]
  rw [combineRun_eq_one _ _ _ _ _ _ hbuf, combineRun, Got.bind_assoc]
  simp only [Got.bind_assoc, Got.bind_data]
  rw [fullBlocks_one_bind
    (G := fun h => (readBytes bus (a + nhBlockBytes * (len / nhBlockBytes)) (len % nhBlockBytes)).bind fun y =>
      .data (fold (clamp (polyKey k)) h (tailDigest k y)))
    (fun c hc => lastBlock_finalFlush_h bus _ _ hc) bus _ _ (flush_flushed _ c), hzero]
  conv_rhs => rw [← Nat.div_add_mod len nhBlockBytes, readBytes_add]
  simp only [Got.bind_assoc, Got.bind_data]
  refine Got.bind_congr fun x hx => Got.bind_congr fun y hy => ?_
  have hblocks : (blockDigests k (len / nhBlockBytes) x).length = 16 * (2 * (len / nhBlockBytes)) := by
    rw [blockDigests_length]
    omega
  rw [polyResidue, ← digests_of_parts k (readBytes_length hx) (readBytes_length hy), fold_append _ _ hblocks]

/-- The residue that the running command's combiner ends in. -/
theorem combine_h (s : State) :
    ((combine s).bind fun c => .data c.h) =
      (memRead s .src (latSrc s) (latLen s)).bind fun msg => .data (polyResidue s.keyram msg) :=
  combineRun_h (c := ⟨0, { s.work with dbuf := [], dcnt := 0 }⟩) _ _ _ _ _ ⟨rfl, rfl⟩ rfl

theorem onRead_bind_data (g : Got α) (p : α → β) (spoil : State → State) (s : State)
    (f : β → Host.Outcome State Fault Refusal) :
    onRead (g.bind fun x => .data (p x)) spoil s f = onRead g spoil s fun x => f (p x) := by
  cases g <;> rfl

/-- Of the combiner a command uses the residue alone, so for the command it is one read of the message. -/
theorem onRead_combine (s : State) (spoil : State → State) (f : Fin polyP → Host.Outcome State Fault Refusal) :
    onRead (combine s) spoil s (fun c => f c.h) =
      onRead (memRead s .src (latSrc s) (latLen s)) spoil s fun msg => f (polyResidue s.keyram msg) := by
  rw [← onRead_bind_data (combine s) Comb.h, combine_h, onRead_bind_data]

end Combiner

/-! ## All that a command can end in (R222 to R225)

Behind its checks every command has one shape: it reads its context range and its source range, either of which may be empty,
asks a port or needs none, and completes with its results. -/

/-- The side effect of a bus error (R128, R130, R141, R172, R189, R204). -/
def readSpoil : Instr → State → State
  | .kdf | .keyload => spoilKey
  | .polyUpd | .combine | .hash => spoilAcc
  | .nop | .tplInit | .nh _ | .polyInit | .polyUpdnh | .polyFin => id

/-- The side effect of an error from a port (R128, R130, R204). -/
def portSpoil : Instr → State → State
  | .kdf => spoilKey
  | .tplInit => dropTemplate
  | .hash => spoilHash
  | .nop | .keyload | .nh _ | .polyInit | .polyUpd | .polyUpdnh | .polyFin | .combine => id

/-- How the port that a command asks answers; one that asks none goes on as from an answer. -/
def portOf (i : Instr) (s : State) : PortMode :=
  match i with
  | .kdf => s.xofPort
  | .tplInit | .hash => s.kmacPort
  | .nop | .keyload | .nh _ | .polyInit | .polyUpd | .polyUpdnh | .polyFin | .combine => .answers

/-- What `COMBINE` and `HASH` leave in the accumulator and in `POLY_OUT`, from the residue alone (R181, R191). -/
def storeResidue (h : Fin polyP) (s : State) : State := storeComb ⟨h, s.work⟩ s

/-- The state with the results of a command written, from the bytes that it read. -/
def resultOf (i : Instr) (ctx src : Bytes) (s : State) : State :=
  match i with
  | .nop => s
  | .kdf => storeKey (Config.xof kdfLabel ctx src keyBytes) s
  | .keyload => storeKey (packBytes 33152 src) s
  | .tplInit => storeTemplate (kmacInit (kmacKey s.keyram) ctx) s
  | .nh _ => storeNh (nhEval s.work.vecSel s.keyram src) s
  | .polyInit => storeFresh s
  | .polyUpd => foldInto src s
  | .polyUpdnh => foldInto (unpackBytes s.nhd 0 32) s
  | .polyFin => { s with pd := finalize s.h }
  | .combine => storeResidue (polyResidue s.keyram src) s
  | .hash =>
    storeHash (Config.kmac (unpackBytes s.tpl.tk 0 32) s.tpl.tc
      (leBytes lenBytes (latLen s) ++ unpackBytes (polyDigest s.keyram src) 0 16) outputBytes)
      (storeResidue (polyResidue s.keyram src) s)

/-- What a command does once its ranges are read. -/
def execPort (i : Instr) (ctx src : Bytes) (s : State) : Host.Outcome State Fault Refusal :=
  onPort (portAnswer s (portOf i s) (resultOf i ctx src s)) (portSpoil i) s fun u => .next (complete u)

/-- A request whose answer is stored at completion may as well be answered with the state that holds it. -/
theorem onPort_store {α : Type} (s : State) (m : PortMode) (x : α) (spoil : State → State) (f : α → State) :
    onPort (portAnswer s m x) spoil s (fun out => .next (complete (f out))) =
      onPort (portAnswer s m (f x)) spoil s fun u => .next (complete u) := by
  cases m with
  | answers | silent => rfl
  | errs => simp only [portAnswer]; cases s.cfg.primMayFault <;> rfl

@[simp] theorem onRead_data {α : Type} (x : α) (spoil : State → State) (s : State)
    (k : α → Host.Outcome State Fault Refusal) : onRead (.data x) spoil s k = k x := rfl

/-- The one shape of the commands: a range that a command does not read is one of length 0. -/
theorem execBody_eq (i : Instr) (s : State) :
    execBody i s =
      onRead (memRead s .ctx (latCtx s) (ctxReadLen s i)) (readSpoil i) s fun ctx =>
      onRead (memRead s .src (latSrc s) (srcReadLen s i)) (readSpoil i) s fun src => execPort i ctx src s := by
  cases i with
  | nop | polyInit | polyUpdnh | polyFin | keyload | nh | polyUpd => rfl
  | kdf => simp only [execBody, xofRequest, onPort_store]; rfl
  | tplInit => simp only [execBody, kmacInitRequest, onPort_store]; rfl
  | combine => exact onRead_combine s spoilAcc fun h => .next (complete (storeResidue h s))
  | hash =>
    refine (onRead_combine s spoilAcc fun h => onPort (kmacFinalRequest s (latLen s) (finalize h)) spoilHash s fun hd =>
      .next (complete (storeHash hd (storeResidue h s)))).trans ?_
    simp only [kmacFinalRequest, onPort_store]
    rfl

/-- Its checks pass and no range it reads has read side effects. -/
structure Launched (i : Instr) (s : State) : Prop where
  checks : ChecksPass i s
  allowed : LaunchAllowed i s

/-- All that a command can answer: the first failed check, a wait, an error of the bus or of a port, or its results. -/
inductive CommandEnds (i : Instr) (s : State) : State → Prop
  | failedCheck {c : Check} (hc : firstFailed i s = some c) : CommandEnds i s (raiseError c.code c.addr s)
  | ctxSilent (hl : Launched i s) (hctx : memRead s .ctx (latCtx s) (ctxReadLen s i) = .silent) : CommandEnds i s s
  | ctxFault {f : Nat} (hl : Launched i s) (hctx : CtxFault i s f) :
      CommandEnds i s (raiseError .memFault (BitVec.ofNat 64 f) (readSpoil i s))
  | srcSilent {ctx : Bytes} (hl : Launched i s) (hctx : CtxBytes i s ctx)
      (hsrc : memRead s .src (latSrc s) (srcReadLen s i) = .silent) : CommandEnds i s s
  | srcFault {ctx : Bytes} {f : Nat} (hl : Launched i s) (hctx : CtxBytes i s ctx) (hsrc : SrcFault i s f) :
      CommandEnds i s (raiseError .memFault (BitVec.ofNat 64 f) (readSpoil i s))
  | portSilent {ctx src : Bytes} (hl : Launched i s) (hctx : CtxBytes i s ctx) (hsrc : SrcBytes i s src)
      (hp : portOf i s = .silent) : CommandEnds i s s
  | portError {ctx src : Bytes} (hl : Launched i s) (hctx : CtxBytes i s ctx) (hsrc : SrcBytes i s src)
      (hp : PortErrs s (portOf i s)) : CommandEnds i s (raiseError .primFault 0 (portSpoil i s))
  | done {ctx src : Bytes} (hl : Launched i s) (hctx : CtxBytes i s ctx) (hsrc : SrcBytes i s src)
      (hp : PortAnswers s (portOf i s)) : CommandEnds i s (complete (resultOf i ctx src s))

theorem execPort_answers {i : Instr} {ctx src : Bytes} (hp : PortAnswers s (portOf i s)) :
    execPort i ctx src s = .next (complete (resultOf i ctx src s)) := by
  rcases hp with hp | ⟨hp, hf⟩ <;> simp [execPort, portAnswer, onPort, *]

theorem execPort_errs {i : Instr} {ctx src : Bytes} (hp : PortErrs s (portOf i s)) :
    execPort i ctx src s = .next (raiseError .primFault 0 (portSpoil i s)) := by
  simp [execPort, portAnswer, onPort, hp.1, hp.2]

theorem execPort_silent {i : Instr} {ctx src : Bytes} (hp : portOf i s = .silent) : execPort i ctx src s = .next s := by
  simp [execPort, portAnswer, onPort, hp]

/-- A port answers in exactly one of three ways (R74, R75). -/
theorem port_cases (s : State) (m : PortMode) : PortAnswers s m ∨ PortErrs s m ∨ m = .silent := by
  cases m <;> simp [PortAnswers, PortErrs]

theorem exec_of_ends {i : Instr} (h : CommandEnds i s t) : exec i s = .next t := by
  have hbody : Launched i s → exec i s = _ := fun hl => (exec_pass hl.checks hl.allowed).trans (execBody_eq i s)
  cases h with
  | failedCheck hc => exact exec_next.mpr (.inl ⟨_, hc, rfl⟩)
  | ctxSilent hl hctx | ctxFault hl hctx => rw [hbody hl, hctx]; rfl
  | srcSilent hl hctx hsrc | srcFault hl hctx hsrc => rw [hbody hl, hctx, onRead_data, hsrc]; rfl
  | portSilent hl hctx hsrc hp => rw [hbody hl, hctx, onRead_data, hsrc, onRead_data, execPort_silent hp]
  | portError hl hctx hsrc hp => rw [hbody hl, hctx, onRead_data, hsrc, onRead_data, execPort_errs hp]
  | done hl hctx hsrc hp => rw [hbody hl, hctx, onRead_data, hsrc, onRead_data, execPort_answers hp]

/-- Whatever ports and memory answer, a launched command ends in one of these ways. -/
theorem ends_of_launched {i : Instr} (hl : Launched i s) : ∃ t, CommandEnds i s t := by
  cases hctx : memRead s .ctx (latCtx s) (ctxReadLen s i) with
  | silent => exact ⟨_, .ctxSilent hl hctx⟩
  | fault f => exact ⟨_, .ctxFault hl hctx⟩
  | data ctx =>
    cases hsrc : memRead s .src (latSrc s) (srcReadLen s i) with
    | silent => exact ⟨_, .srcSilent hl hctx hsrc⟩
    | fault f => exact ⟨_, .srcFault hl hctx hsrc⟩
    | data src =>
      rcases port_cases s (portOf i s) with hp | hp | hp
      · exact ⟨_, .done hl hctx hsrc hp⟩
      · exact ⟨_, .portError hl hctx hsrc hp⟩
      · exact ⟨_, .portSilent hl hctx hsrc hp⟩

theorem exec_ends {i : Instr} (h : exec i s = .next t) : CommandEnds i s t := by
  rcases exec_next.mp h with ⟨c, hc, rfl⟩ | ⟨hc, hl, -⟩
  · exact .failedCheck hc
  · obtain ⟨t', ht'⟩ := ends_of_launched ⟨hc, hl⟩
    cases h.symm.trans (exec_of_ends ht')
    exact ht'

/-! ## What the ends of a command change -/

theorem readSpoil_around (i : Instr) (s : State) : SameAround s (readSpoil i s) := by
  cases i <;> simp [readSpoil]

theorem portSpoil_around (i : Instr) (s : State) : SameAround s (portSpoil i s) := by
  cases i <;> simp [portSpoil]

theorem foldInto_around (d : Bytes) (s : State) : SameAround s (foldInto d s) := by simp

/-- For `POLY_UPDNH` by the lemma over any bytes: of 32 given bytes the kernel would compute the fold. -/
theorem resultOf_around (i : Instr) (ctx src : Bytes) (s : State) : SameAround s (resultOf i ctx src s) := by
  cases i with
  | polyUpdnh => exact foldInto_around _ s
  | _ => simp [resultOf, storeResidue]

theorem resultOf_draws (i : Instr) (ctx src : Bytes) (s : State) : (resultOf i ctx src s).draws = s.draws := by
  cases i with
  | polyUpdnh => exact foldInto_draws s _
  | _ => rfl

/-- Of a completed command nothing is left, and its surroundings are as they were. -/
theorem finish_frame (hu : SameAround s u) (hd : u.draws = s.draws) :
    SameSetup s (finish u) ∧ SameOutside s (finish u) ∧ Ended s (finish u) :=
  ⟨hu.1, hu.2, rfl, rfl, rfl, rfl, congrArg (· + 1) hd⟩

theorem raiseError_frame (hu : SameAround s u) (hd : u.draws = s.draws) (code : ErrCode) (info : DWord) :
    SameSetup s (raiseError code info u) ∧ SameOutside s (raiseError code info u) ∧ Ended s (raiseError code info u) :=
  finish_frame (u := { u with errAddr := _, status := _ }) hu hd

theorem readSpoil_frame (i : Instr) (s : State) (code : ErrCode) (info : DWord) :
    SameSetup s (raiseError code info (readSpoil i s)) ∧ SameOutside s (raiseError code info (readSpoil i s)) ∧
      Ended s (raiseError code info (readSpoil i s)) :=
  raiseError_frame (readSpoil_around i s) (by cases i <;> rfl) code info

theorem portSpoil_frame (i : Instr) (s : State) (code : ErrCode) (info : DWord) :
    SameSetup s (raiseError code info (portSpoil i s)) ∧ SameOutside s (raiseError code info (portSpoil i s)) ∧
      Ended s (raiseError code info (portSpoil i s)) :=
  raiseError_frame (portSpoil_around i s) (by cases i <;> rfl) code info

theorem resultOf_frame (i : Instr) (ctx src : Bytes) (s : State) :
    SameSetup s (complete (resultOf i ctx src s)) ∧ SameOutside s (complete (resultOf i ctx src s)) ∧
      Ended s (complete (resultOf i ctx src s)) :=
  finish_frame (resultOf_around i ctx src s) (resultOf_draws i ctx src s)

/-! ## The invariant along the engine's step (R40 to R49, R223 to R225, R276) -/

/-- What a command may leave behind when it ends: the surroundings and `VEC_USED` as they were, and a template and an
accumulator that belong to the valid key wherever they are valid. -/
structure EndsSound (s u : State) : Prop where
  around : SameAround s u
  vecUsed : u.status.vecUsed = s.status.vecUsed
  template : TemplateInv u
  acc : AccInv u

/-- A completion of such a state meets the invariant when `ERR` comes with a code. -/
theorem inv_finish (hs : Inv s) (hu : EndsSound s u) (he : ErrorInv u) : Inv (finish u) := by
  obtain ⟨hwf, -, -, -, -, hvec, -, hmem⟩ := hs
  obtain ⟨hcfg, hctrl, -, hm, -⟩ := sameAround_iff.mp hu.around
  refine ⟨?_, hu.template, hu.acc, fun _ => ⟨rfl, rfl, rfl⟩, fun hb => Fsm.noConfusion hb, fun hv => ?_, he, ?_⟩
  · rw [finish_cfg, hcfg]
    exact hwf
  · rw [finish_cfg, hcfg] at hv
    obtain ⟨hen, hused⟩ := hvec hv
    exact ⟨hctrl ▸ hen, hu.vecUsed.trans hused⟩
  · show MemoryInv u
    rw [MemoryInv, hm, hcfg]
    exact hmem

theorem inv_raiseError (hs : Inv s) (hu : EndsSound s u) {code : ErrCode} (hc : code ≠ .none) (info : DWord) :
    Inv (raiseError code info u) :=
  inv_finish hs ⟨hu.around, hu.vecUsed, hu.template, hu.acc⟩ fun _ => hc

/-- A command that completes without an error keeps the cleared error bits. -/
theorem inv_complete (hs : Inv s) (hu : EndsSound s u) (he : u.status.err = s.status.err)
    (hc : u.status.errCode = s.status.errCode) : Inv (complete u) := by
  have ⟨_, _, _, _, _, _, herr, _⟩ := hs
  refine inv_finish hs hu fun h => ?_
  rw [hc]
  exact herr (he ▸ h)

theorem endsSound_self (hs : Inv s) : EndsSound s s := by
  obtain ⟨-, htpl, hacc, -⟩ := hs
  exact ⟨by simp, rfl, htpl, hacc⟩

/-- Nothing stays valid with a spoilt key (R130). -/
theorem endsSound_spoilKey (s : State) : EndsSound s (spoilKey s) :=
  ⟨by simp, rfl, fun h => Bool.noConfusion h, fun h => Bool.noConfusion h⟩

theorem endsSound_spoilAcc (hs : Inv s) : EndsSound s (spoilAcc s) :=
  ⟨by simp, rfl, (endsSound_self hs).template, fun h => Bool.noConfusion h⟩

theorem endsSound_readSpoil (hs : Inv s) (i : Instr) : EndsSound s (readSpoil i s) := by
  cases i with
  | kdf | keyload => exact endsSound_spoilKey s
  | polyUpd | combine | hash => exact endsSound_spoilAcc hs
  | _ => exact endsSound_self hs

theorem endsSound_portSpoil (hs : Inv s) (i : Instr) : EndsSound s (portSpoil i s) := by
  cases i with
  | kdf => exact endsSound_spoilKey s
  | tplInit => exact ⟨by simp [portSpoil], rfl, fun h => Bool.noConfusion h, (endsSound_self hs).acc⟩
  | hash => exact ⟨by simp [portSpoil], rfl, fun h => Bool.noConfusion h, fun h => Bool.noConfusion h⟩
  | _ => exact endsSound_self hs

/-- Reads have no bytes at the point where the personalization is not bound, and all of them where it is (R129). -/
theorem readContext_length {point : PersBind} {ctx : Bytes} (h : readContext point s = .data ctx) :
    ctx.length = if s.cfg.persBind = point then latCtxLen s else 0 := memRead_length h

theorem readContext_unbound {point : PersBind} {ctx : Bytes} (h : readContext point s = .data ctx)
    (hp : s.cfg.persBind ≠ point) : ctx = [] :=
  List.eq_nil_of_length_eq_zero ((readContext_length h).trans (if_neg hp))

theorem readContext_bound {point : PersBind} {ctx : Bytes} (h : readContext point s = .data ctx)
    (hp : s.cfg.persBind = point) : ctx.length = s.lat.ctxLen.toNat :=
  (readContext_length h).trans (if_pos hp)

/-- The commands that read the key store run behind a check that it is valid (R222 step 2). -/
theorem keyValid_of_checksPass {i : Instr} (hc : ChecksPass i s) (hi : needsKey i = true) : s.status.keyValid = true :=
  (checksPass_iff.mp hc).1 hi

/-- A store that keeps the flags, the key store, the template and the multiplier keeps both pairs together. -/
theorem endsSound_foldInto (hs : Inv s) (d : Bytes) : EndsSound s (foldInto d s) :=
  ⟨by simp, rfl, (endsSound_self hs).template, (endsSound_self hs).acc⟩

/-- An accumulator and a template are made from the key store behind its check, and a new key store leaves neither valid. -/
theorem endsSound_resultOf {i : Instr} {ctx : Bytes} (hs : Inv s) (hc : ChecksPass i s) (hctx : CtxBytes i s ctx)
    (src : Bytes) : EndsSound s (resultOf i ctx src s) := by
  have ⟨_, _, htpl, hacc⟩ := endsSound_self hs
  have haround := resultOf_around i ctx src s
  cases i with
  | kdf | keyload => exact ⟨haround, rfl, fun h => Bool.noConfusion h, fun h => Bool.noConfusion h⟩
  | tplInit =>
    have hk := keyValid_of_checksPass hc rfl
    have hempty : s.cfg.persBind = .kdf → ctx = [] := fun hp => readContext_unbound hctx (by simp [hp])
    exact ⟨haround, rfl, fun _ => ⟨hk, rfl, hempty⟩, hacc⟩
  | polyInit | combine | hash =>
    have hk := keyValid_of_checksPass hc rfl
    exact ⟨haround, rfl, htpl, fun _ => ⟨hk, rfl⟩⟩
  | polyUpd | polyUpdnh => exact endsSound_foldInto hs _
  | nop | nh | polyFin => exact ⟨haround, rfl, htpl, hacc⟩

theorem lengthError_ne (i : Instr) : lengthError i ≠ .none ∧ lengthError i ≠ .memFault := by
  cases i <;> simp [lengthError]

/-- The checks of R222 have codes of the checks phase. -/
theorem firstFailed_code_ne {i : Instr} {c : Check} (h : firstFailed i s = some c) :
    c.code ≠ .none ∧ c.code ≠ .memFault := by
  have hm : c ∈ checksOf i s := List.mem_of_find?_eq_some h
  simp only [checksOf, List.mem_cons, List.not_mem_nil, or_false] at hm
  rcases hm with rfl | rfl | rfl | rfl | rfl | rfl
  case inr.inr.inr.inl => exact lengthError_ne i
  all_goals exact ⟨ErrCode.noConfusion, ErrCode.noConfusion⟩

/-- A completed command leaves the error bits alone. -/
theorem resultOf_err (i : Instr) (ctx src : Bytes) (s : State) :
    (resultOf i ctx src s).status.err = s.status.err ∧ (resultOf i ctx src s).status.errCode = s.status.errCode := by
  cases i with
  | polyUpdnh => exact ⟨congrArg Status.err (foldInto_status s _), congrArg Status.errCode (foldInto_status s _)⟩
  | _ => exact ⟨rfl, rfl⟩

theorem exec_keeps_inv {i : Instr} (hs : Inv s) (h : exec i s = .next t) : Inv t := by
  cases exec_ends h with
  | failedCheck hc => exact inv_raiseError hs (endsSound_self hs) (firstFailed_code_ne hc).1 _
  | ctxSilent | srcSilent | portSilent => exact hs
  | ctxFault | srcFault => exact inv_raiseError hs (endsSound_readSpoil hs i) (by decide) _
  | portError => exact inv_raiseError hs (endsSound_portSpoil hs i) (by decide) _
  | done hl hctx =>
    obtain ⟨herr, hcode⟩ := resultOf_err i _ _ s
    exact inv_complete hs (endsSound_resultOf hs hl.checks hctx _) herr hcode

theorem engineStep_keeps_inv (hs : Inv s) (h : engineStep s = .next t) : Inv t := by
  rcases engineStep_next.mp h with ⟨-, rfl⟩ | ⟨-, i, -, he⟩ | ⟨-, -, rfl⟩
  · exact hs
  · exact exec_keeps_inv hs he
  · exact inv_raiseError hs (endsSound_self hs) (by decide) 0

/-! ## The invariant along the moves of the host and the platform -/

/-- A reset leaves nothing that the invariant speaks of but the parameters and memory (R260). -/
theorem resetBlock_keeps_inv (hs : Inv s) : Inv (resetBlock s) := by
  obtain ⟨hwf, -, -, -, -, -, -, hmem⟩ := hs
  exact ⟨hwf, fun h => Bool.noConfusion h, fun h => Bool.noConfusion h, fun _ => ⟨rfl, rfl, rfl⟩,
    fun h => Fsm.noConfusion h, fun _ => ⟨rfl, rfl⟩, fun h => Bool.noConfusion h, hmem⟩

/-- Acceptance sets up the running command as the invariant says (R102). -/
theorem accept_keeps_inv (hs : Inv s) (w : Word) : Inv (accept w s) := by
  obtain ⟨hwf, htpl, hacc, -, -, hvec, -, hmem⟩ := hs
  refine ⟨hwf, htpl, hacc, fun h => Fsm.noConfusion h, fun _ => ⟨rfl, rfl, rfl, rfl, rfl, ?_⟩, fun hv => ?_,
    fun h => Bool.noConfusion h, hmem⟩
  · rw [accept_lat, commandWord_latch]
    rfl
  · obtain ⟨hen, -⟩ := hvec hv
    simp [vecSelect, hen]

theorem writeCtrl_keeps_inv (hs : Inv s) (v : Word) : Inv (writeCtrl v s) := by
  cases h31 : v.getLsbD 31 with
  | true =>
    rw [writeCtrl_softReset h31]
    exact resetBlock_keeps_inv hs
  | false =>
    rw [writeCtrl_fields h31]
    obtain ⟨hwf, htpl, hacc, hidle, hbusy, hvec, herr, hmem⟩ := hs
    refine ⟨hwf, htpl, hacc, hidle, hbusy, fun hv => ⟨?_, (hvec hv).2⟩, herr, hmem⟩
    have hv : s.cfg.vecPresent = false := hv
    simp [hv]

/-- An acknowledgement only clears bits (R29). -/
theorem acknowledge_keeps_inv (hs : Inv s) (v : Word) : Inv (acknowledge v s) := by
  obtain ⟨hwf, htpl, hacc, hidle, hbusy, hvec, herr, hmem⟩ := hs
  refine ⟨hwf, htpl, hacc, hidle, fun hb => ?_, hvec, fun he => herr (Bool.and_elim_left he), hmem⟩
  obtain ⟨hdone, herr, hrest⟩ := hbusy hb
  exact ⟨by simp [hdone], by simp [herr], hrest⟩

theorem writeCmd_keeps_inv (hs : Inv s) (w : Word) : Inv (writeCmd w s) := by
  cases hf : s.fsm with
  | idle =>
    rw [writeCmd_idle hf]
    exact accept_keeps_inv hs w
  | busy =>
    rw [writeCmd_busy hf]
    exact hs

theorem writeOffset_keeps_inv (hs : Inv s) (off : Nat) (v : Word) : Inv (writeOffset off v s) := by
  cases hg : regAt off with
  | none =>
    rw [writeOffset_reserved hg]
    exact hs
  | some g =>
    rw [writeOffset_of_regAt hg]
    cases g with
    | ctrl => exact writeCtrl_keeps_inv hs v
    | status => exact acknowledge_keeps_inv hs v
    | cmd => exact writeCmd_keeps_inv hs v
    | _ => exact hs

theorem hostWrite_keeps_inv {addr width : Nat} {v : Word} (hs : Inv s) (h : hostWrite addr width v s = .next t) :
    Inv t := by
  obtain ⟨off, -, rfl⟩ := hostWrite_next.mp h
  exact writeOffset_keeps_inv hs off v

/-- A host store keeps the canonical form, and races only with a running command (R51, R71). -/
theorem hostStore_keeps_inv {a : Nat} {b : Byte} (hs : Inv s) (h : hostStore a b s = .next t) : Inv t := by
  obtain ⟨-, ha, rfl⟩ := hostStore_next h
  obtain ⟨hwf, htpl, hacc, hidle, hbusy, hvec, herr, hrise, hfit⟩ := hs
  refine ⟨hwf, htpl, hacc, fun hi => ?_, hbusy, hvec, herr, Memory.wf_set _ _ _ hrise, fun c hc => ?_⟩
  · have hi : s.fsm = .idle := hi
    simpa [hi] using hidle hi
  · rcases Memory.mem_set hc with rfl | hc
    · exact ha
    · exact hfit c hc

theorem unmapByte_keeps_inv (hs : Inv s) (a : Nat) : Inv (unmapByte a s) := by
  obtain ⟨hwf, htpl, hacc, hidle, hbusy, hvec, herr, hrise, hfit⟩ := hs
  exact ⟨hwf, htpl, hacc, hidle, hbusy, hvec, herr, Memory.wf_erase _ _ hrise, fun c hc => hfit c (Memory.mem_erase hc)⟩

theorem runEvent_keeps_inv {e : Event} (hs : Inv s) (h : runEvent e s = .next t) : Inv t := by
  cases e with
  | write addr width v => exact hostWrite_keeps_inv hs h
  | read addr width =>
    obtain ⟨off, -, rfl⟩ := hostRead_next.mp h
    exact hs
  | store addr b => exact hostStore_keeps_inv hs h
  | busError addr =>
    cases h
    exact unmapByte_keeps_inv hs addr
  | port p m =>
    cases h
    cases p <;> exact hs
  | hwReset =>
    cases h
    exact resetBlock_keeps_inv hs
  | engine => exact engineStep_keeps_inv hs h
  | engineWrite addr width v =>
    rcases engineThenWrite_next.mp h with ⟨-, hw⟩ | ⟨-, u, he, hw⟩
    · exact hostWrite_keeps_inv hs hw
    · exact hostWrite_keeps_inv (engineStep_keeps_inv hs he) hw

/-- Settles O57: the engine keeps the invariant because whatever a command ends in is sound, and every other move keeps it
too. -/
theorem stepKeepsTheInvariant : Obligations.StepKeepsTheInvariant := by
  intro s t hs h
  rcases step_next.mp h with ⟨-, he⟩ | ⟨e, es, -, he⟩
  · exact engineStep_keeps_inv hs he
  · have hpop : Inv (popInput es s) := hs
    exact runEvent_keeps_inv hpop he

/-- Settles O58: with nothing valid, nothing running and empty memory, the default parameters are all there is to see. -/
theorem resetMeetsTheInvariant : Obligations.ResetMeetsTheInvariant := by
  refine ⟨by decide, fun h => Bool.noConfusion h, fun h => Bool.noConfusion h, fun _ => ⟨rfl, rfl, rfl⟩,
    fun h => Fsm.noConfusion h, fun h => Bool.noConfusion h, fun h => Bool.noConfusion h, rfl, ?_⟩
  intro c hc
  cases hc

/-! ## The checks phase (R222) -/

/-- Of the codes of the checks phase only that of a range check records an address (R221). -/
theorem recordsAddr_iff {code : ErrCode} (h : code ≠ .memFault) : code.recordsAddr = true ↔ code = .addrRange := by
  cases code with
  | memFault => exact absurd rfl h
  | _ => simp [ErrCode.recordsAddr]

/-- Settles O24: the first failed check is raised, and its address counts for a range check alone. -/
theorem firstFailedCheckIsReported : Obligations.FirstFailedCheckIsReported := by
  intro i s c hc
  obtain ⟨-, hmem⟩ := firstFailed_code_ne hc
  obtain ⟨hsetup, hout, hended⟩ := raiseError_frame (s := s) (by simp) rfl c.code c.addr
  refine ⟨_, exec_of_ends (.failedCheck hc), rfl, ?_, hsetup, hout, ⟨rfl, rfl⟩, ⟨rfl, rfl⟩, rfl, rfl, rfl, hended⟩
  rw [raiseError_errAddr]
  exact if_congr (recordsAddr_iff hmem) rfl rfl

/-- A command whose checks pass fails none. -/
theorem not_failed_of_checksPass {i : Instr} {c : Check} (h : ChecksPass i s) : firstFailed i s ≠ some c := by
  rw [h]
  exact (Option.some_ne_none c).symm

/-- Settles O25: behind the checks only the bus and the ports raise errors. -/
theorem passingChecksGiveNoCheckError : Obligations.PassingChecksGiveNoCheckError := by
  intro i s t hc herr hcode h
  cases exec_ends h with
  | failedCheck hf => exact absurd hf (not_failed_of_checksPass hc)
  | ctxSilent | srcSilent | portSilent => exact .inl rfl
  | ctxFault | srcFault => exact .inr (.inr ⟨rfl, rfl, rfl, .inl rfl⟩)
  | portError => exact .inr (.inr ⟨rfl, rfl, rfl, .inr rfl⟩)
  | done =>
    obtain ⟨he, hec⟩ := resultOf_err i _ _ s
    exact .inr (.inl ⟨rfl, rfl, he.trans herr, hec.trans hcode⟩)

/-- Settles O43: one of the two launches refuses, the one of the context range first. -/
theorem readSideEffectsAreRefused : Obligations.ReadSideEffectsAreRefused := by
  intro i s hc hl
  have hpass : (checksOf i s).find? (fun c => c.applies && !c.holds) = none := hc
  rw [exec_eq, guarded_eq, hpass]
  cases hctx : hasReadEffects s (latCtx s) (ctxReadLen s i) with
  | true => exact ⟨_, if_pos hctx⟩
  | false =>
    have hsrc : hasReadEffects s (latSrc s) (srcReadLen s i) = true := by
      by_contra hn
      exact hl ⟨hctx, Bool.not_eq_true _ ▸ hn⟩
    exact ⟨_, (launch_pass hctx).trans (if_pos hsrc)⟩

/-! ## The results of the commands -/

/-- A command that reads nothing is never refused. -/
theorem launchAllowed_of_no_reads {i : Instr} (hc : ctxReadLen s i = 0) (hs : srcReadLen s i = 0) : LaunchAllowed i s := by
  rw [LaunchAllowed, hc, hs]
  exact ⟨hasReadEffects_zero s _, hasReadEffects_zero s _⟩

theorem exec_done {i : Instr} {ctx src : Bytes} (hc : ChecksPass i s) (hl : LaunchAllowed i s) (hctx : CtxBytes i s ctx)
    (hsrc : SrcBytes i s src) (hp : PortAnswers s (portOf i s)) : exec i s = .next (complete (resultOf i ctx src s)) :=
  exec_of_ends (.done ⟨hc, hl⟩ hctx hsrc hp)

/-- Settles O26: the result of `NOP` is the state itself, which is completed. -/
theorem nopOnlyCompletes : Obligations.NopOnlyCompletes := by
  intro s
  obtain ⟨hsetup, hout, hended⟩ := resultOf_frame .nop [] [] s
  exact ⟨_, rfl, rfl, hsetup, hout, ⟨rfl, rfl⟩, ⟨rfl, rfl⟩, ⟨rfl, rfl, rfl, rfl⟩, hended⟩

/-- Settles O27: the XOF answers from the bytes of both ranges, the context range being empty where nothing is bound. -/
theorem kdfStoresTheXofOutput : Obligations.KdfStoresTheXofOutput := by
  intro s ctx seed hc hl hctx hsrc hp
  obtain ⟨hsetup, hout, hended⟩ := resultOf_frame .kdf ctx seed s
  exact ⟨_, exec_done hc hl hctx hsrc hp, rfl, fun hm => readContext_unbound hctx (by simp [hm]), readContext_bound hctx,
    rfl, rfl, hsetup, hout, ⟨rfl, rfl⟩, ⟨rfl, rfl, rfl, rfl⟩, hended⟩

/-- The parts of a key store are slices of its bytes (R41). -/
theorem keyram_slices {v : DerivedKey} {k : Bytes} (h : unpackBytes v 0 4144 = k) :
    unpackBytes (kmacKey v) 0 32 = slice k 0 32 ∧ unpackBytes (polyKey v) 0 16 = slice k 32 16 ∧
      ∀ w < 1024, nhKey v w = le32 k (48 + 4 * w) := by
  subst h
  refine ⟨?_, ?_, fun w hw => (le32_unpackBytes v (by omega)).symm⟩
  · rw [slice_unpackBytes v (by decide)]
    exact unpackBytes_extractLsb' v 0 32
  · rw [slice_unpackBytes v (by decide)]
    exact unpackBytes_extractLsb' v 32 16

/-- Settles O28: 4144 bytes packed and unpacked are the same bytes, and the parts of the key store are slices of them. -/
theorem keyloadStoresTheBytes : Obligations.KeyloadStoresTheBytes := by
  intro s k hc hl hsrc
  have hlen : k.length = 4144 := by
    obtain ⟨-, -, -, hlength, -⟩ := checksPass_iff.mp hc
    exact (memRead_length hsrc).trans (of_decide_eq_true hlength)
  have hkey : unpackBytes (packBytes 33152 k) 0 4144 = k := hlen ▸ unpackBytes_packBytes 33152 k (by omega)
  obtain ⟨hkmac, hpoly, hnh⟩ := keyram_slices hkey
  obtain ⟨hsetup, hout, hended⟩ := resultOf_frame .keyload [] k s
  exact ⟨_, exec_done hc hl rfl hsrc (.inl rfl), hkey, hkmac, hpoly, hnh, rfl, rfl, hsetup, hout, ⟨rfl, rfl⟩,
    ⟨rfl, rfl, rfl, rfl⟩, hended⟩

/-- Settles O29: the template is the pair of the low 256 bits of the key store and the bytes of the context range. -/
theorem tplInitStoresTheTemplate : Obligations.TplInitStoresTheTemplate := by
  intro s ctx hc hl hctx hp
  have htk : (kmacKey s.keyram).toNat = s.keyram.toNat % 2 ^ 256 := BitVec.extractLsb'_toNat ..
  obtain ⟨hsetup, hout, hended⟩ := resultOf_frame .tplInit ctx [] s
  exact ⟨_, exec_done hc hl hctx rfl hp, htk, rfl, fun hk => readContext_unbound hctx (by simp [hk]),
    readContext_bound hctx, rfl, rfl, hsetup, hout, ⟨rfl, rfl⟩, ⟨rfl, rfl, rfl, rfl⟩, hended⟩

/-- Settles O31: either datapath gives the digest of the message. -/
theorem nhWritesTheDigest : Obligations.NhWritesTheDigest := by
  intro n s msg hc hl hsrc
  obtain ⟨hsetup, hout, hended⟩ := resultOf_frame (.nh n) [] msg s
  exact ⟨_, exec_done hc hl rfl hsrc (.inl rfl), nhDigest_nhEval _ _ _, memRead_length hsrc, rfl, rfl, rfl, rfl, hsetup,
    hout, ⟨rfl, rfl⟩, ⟨rfl, rfl⟩, hended⟩

/-- Settles O32: the clamped bits 256 to 383 of the key store, behind the check that it is valid. -/
theorem polyInitClampsTheKey : Obligations.PolyInitClampsTheKey := by
  intro s
  refine ⟨fun hk => ?_, fun hk => ?_⟩
  · have hc : ChecksPass .polyInit s := by simp [checksPass_iff, needsPoly, lengthOk, readsCtx, readsSrc, hk]
    have hr : (clamp (polyKey s.keyram)).toNat =
        (s.keyram.toNat / 2 ^ 256 % 2 ^ 128) &&& 0x0FFFFFFC0FFFFFFC0FFFFFFC0FFFFFFF := by
      rw [clamp, BitVec.toNat_and, polyKey, BitVec.extractLsb'_toNat, Nat.shiftRight_eq_div_pow]
      rfl
    obtain ⟨hsetup, hout, hended⟩ := resultOf_frame .polyInit [] [] s
    exact ⟨_, exec_done hc (launchAllowed_of_no_reads rfl rfl) rfl rfl (.inl rfl), hr, rfl, rfl, hsetup, hout, ⟨rfl, rfl⟩,
      ⟨rfl, rfl, rfl, rfl⟩, hended⟩
  · have hf : firstFailed .polyInit s = some ⟨true, false, .keyNotValid, 0⟩ := by
      simp [firstFailed, checksOf, needsKey, hk]
    exact ⟨_, exec_of_ends (.failedCheck hf), rfl, rfl, rfl⟩

/-- Settles O33: the bytes of the source range are folded into the accumulator. -/
theorem polyUpdFoldsTheBytes : Obligations.PolyUpdFoldsTheBytes := by
  intro s d hc hl hsrc
  obtain ⟨hsetup, hout, hended⟩ := resultOf_frame .polyUpd [] d s
  exact ⟨_, exec_done hc hl rfl hsrc (.inl rfl), rfl, rfl, rfl, hsetup, hout, ⟨rfl, rfl⟩, ⟨rfl, rfl, rfl, rfl⟩,
    hended⟩

/-- The commands on a valid accumulator that read nothing pass their checks (R164, R165). -/
theorem checksPass_of_polyValid {i : Instr} (hi : i = .polyUpdnh ∨ i = .polyFin) (hv : s.status.polyValid = true) :
    ChecksPass i s := by
  rcases hi with rfl | rfl <;> simp [checksPass_iff, needsKey, lengthOk, readsCtx, readsSrc, hv]

/-- Without a valid accumulator they end with `POLY_NOT_VALID`. -/
theorem exec_polyNotValid {i : Instr} (hi : i = .polyUpdnh ∨ i = .polyFin) (hv : s.status.polyValid = false) :
    exec i s = .next (raiseError .polyNotValid 0 s) := by
  have hf : firstFailed i s = some ⟨true, false, .polyNotValid, 0⟩ := by
    rcases hi with rfl | rfl <;> simp [firstFailed, checksOf, needsKey, needsPoly, hv]
  exact exec_of_ends (.failedCheck hf)

/-- The 32 bytes of a digest are two chunks, the lower first (R164). -/
theorem fold_digest_val (r : BitVec 128) (h : Fin polyP) (d : Str32) :
    (fold r h (unpackBytes d 0 32)).val =
      (((h.val + (d.toNat % 2 ^ 128 + 2 ^ 128)) * r.toNat % (2 ^ 130 - 5)) + (d.toNat / 2 ^ 128 + 2 ^ 128)) *
        r.toNat % (2 ^ 130 - 5) := by
  have hd := d.isLt
  have hlow : (unpackBytes d 0 32).take 16 = unpackBytes d 0 16 := slice_unpackBytes d (o := 0) (by decide)
  have hhigh : (unpackBytes d 0 32).drop 16 = unpackBytes d 16 16 := by
    rw [unpackBytes, leBytes_drop, Nat.mul_zero, Nat.pow_zero, Nat.div_one, unpackBytes]
  have vlow : leNat (unpackBytes d 0 16) = d.toNat % 2 ^ 128 := by simp [leNat_unpackBytes]
  have vhigh : leNat (unpackBytes d 16 16) = d.toNat / 2 ^ 128 := by
    rw [leNat_unpackBytes]
    omega
  rw [fold_of_le_length (by simp), hlow, hhigh, fold_chunk (unpackBytes_length _ _ _), foldChunk_val (unpackBytes_length _ _ _),
    foldChunk_val (unpackBytes_length _ _ _), vlow, vhigh]

/-- What a fold into the accumulator leaves, over any bytes. -/
theorem complete_foldInto_frame (d : Bytes) (s : State) :
    (complete (foldInto d s)).h = fold s.r s.h d ∧ (complete (foldInto d s)).r = s.r ∧
      (complete (foldInto d s)).status = { s.status with done := true } ∧ SameKeys s (complete (foldInto d s)) ∧
      SameResults s (complete (foldInto d s)) := ⟨rfl, rfl, rfl, ⟨rfl, rfl⟩, ⟨rfl, rfl, rfl, rfl⟩⟩

/-- Settles O34: the two chunks of `st.NHD` are folded, behind the check that the accumulator is valid. -/
theorem polyUpdnhFoldsTheNhDigest : Obligations.PolyUpdnhFoldsTheNhDigest := by
  intro s
  refine ⟨fun hv => ?_, fun hv => ⟨_, exec_polyNotValid (.inl rfl) hv, rfl, rfl, rfl⟩⟩
  obtain ⟨hsetup, hout, hended⟩ := resultOf_frame .polyUpdnh [] [] s
  obtain ⟨hh, hr, hst, hkeys, hres⟩ := complete_foldInto_frame (unpackBytes s.nhd 0 32) s
  exact ⟨_, exec_done (checksPass_of_polyValid (.inl rfl) hv) (launchAllowed_of_no_reads rfl rfl) rfl rfl (.inl rfl),
    (congrArg Fin.val hh).trans (fold_digest_val _ _ _), hr, hst, hsetup, hout, hkeys, hres, hended⟩

/-- Settles O35: `finalize` keeps the low 128 bits, behind the check that the accumulator is valid. -/
theorem polyFinWritesTheLowBits : Obligations.PolyFinWritesTheLowBits := by
  intro s
  refine ⟨fun hv => ?_, fun hv => ⟨_, exec_polyNotValid (.inr rfl) hv, rfl, rfl, rfl, rfl⟩⟩
  obtain ⟨hsetup, hout, hended⟩ := resultOf_frame .polyFin [] [] s
  exact ⟨_, exec_done (checksPass_of_polyValid (.inr rfl) hv) (launchAllowed_of_no_reads rfl rfl) rfl rfl (.inl rfl),
    finalize_toNat s.h, ⟨rfl, rfl⟩, rfl, rfl, rfl, rfl, hsetup, hout, ⟨rfl, rfl⟩, hended⟩

/-- Settles O36: the combiner is one read of the message and its closed form. -/
theorem combineWritesThePolyDigest : Obligations.CombineWritesThePolyDigest := by
  intro s msg _ hc hl hsrc
  obtain ⟨hsetup, hout, hended⟩ := resultOf_frame .combine [] msg s
  exact ⟨_, exec_done hc hl rfl hsrc (.inl rfl), rfl, rfl, rfl, rfl, rfl, rfl, rfl, hsetup, hout, ⟨rfl, rfl⟩, hended⟩

/-- Settles O37: as `COMBINE`, and the length that the KMAC absorbs is that of the message read. -/
theorem hashWritesTheKmacOfLengthAndDigest : Obligations.HashWritesTheKmacOfLengthAndDigest := by
  intro s msg _ hc hl hsrc hp
  have hlen : msg.length = latLen s := memRead_length hsrc
  obtain ⟨hsetup, hout, hended⟩ := resultOf_frame .hash [] msg s
  rw [hlen]
  exact ⟨_, exec_done hc hl rfl hsrc hp, rfl, rfl, rfl, rfl, rfl, rfl, rfl, hsetup, hout, ⟨rfl, rfl⟩, hended⟩

/-! ## Errors of the execution phase (R223 to R225) -/

theorem exec_srcFault {i : Instr} {f : Nat} (hc : ChecksPass i s) (hl : LaunchAllowed i s) (hctx : CtxBytes i s [])
    (hf : SrcFault i s f) : exec i s = .next (raiseError .memFault (BitVec.ofNat 64 f) (readSpoil i s)) :=
  exec_of_ends (.srcFault ⟨hc, hl⟩ hctx hf)

/-- Settles O38: the side effect of both commands, on the bus and at the port, is the spoilt key. -/
theorem keyCommandFaultsInvalidateEverything : Obligations.KeyCommandFaultsInvalidateEverything := by
  intro i s hi hc hl
  have hspoil : readSpoil i = spoilKey := by rcases hi with rfl | rfl <;> rfl
  refine ⟨fun f hf => ?_, fun ctx seed hkdf hctx hsrc hp => ?_⟩
  · have hexec : exec i s = .next (raiseError .memFault (BitVec.ofNat 64 f) (readSpoil i s)) := by
      rcases hf with hf | ⟨ctx, hctx, hf⟩
      · exact exec_of_ends (.ctxFault ⟨hc, hl⟩ hf)
      · exact exec_of_ends (.srcFault ⟨hc, hl⟩ hctx hf)
    obtain ⟨hsetup, hout, hended⟩ := readSpoil_frame i s .memFault (BitVec.ofNat 64 f)
    rw [hspoil] at hexec hsetup hout hended
    exact ⟨_, hexec, rfl, rfl, rfl, rfl, rfl, rfl, ⟨rfl, rfl⟩, hsetup, hout, hended⟩
  · subst hkdf
    obtain ⟨hsetup, hout, hended⟩ := portSpoil_frame .kdf s .primFault 0
    exact ⟨_, exec_of_ends (.portError ⟨hc, hl⟩ hctx hsrc hp), rfl, rfl, ⟨rfl, rfl, rfl, rfl⟩, ⟨rfl, rfl⟩, hsetup,
      hout, hended⟩

/-- Settles O39: a bus fault has no side effect, and an error of the KMAC port drops the template. -/
theorem tplInitFaultsKeepOrDropTheTemplate : Obligations.TplInitFaultsKeepOrDropTheTemplate := by
  intro s hc hl
  refine ⟨fun f hf => ?_, fun ctx hctx hp => ?_⟩
  · obtain ⟨hsetup, hout, hended⟩ := readSpoil_frame .tplInit s .memFault (BitVec.ofNat 64 f)
    exact ⟨_, exec_of_ends (.ctxFault ⟨hc, hl⟩ hf), rfl, rfl, rfl, rfl, rfl, ⟨rfl, rfl⟩, ⟨rfl, rfl⟩, hsetup, hout,
      hended⟩
  · obtain ⟨hsetup, hout, hended⟩ := portSpoil_frame .tplInit s .primFault 0
    exact ⟨_, exec_of_ends (.portError ⟨hc, hl⟩ hctx (src := []) rfl hp), rfl, ⟨rfl, rfl, rfl, rfl⟩, rfl, ⟨rfl, rfl⟩,
      hsetup, hout, hended⟩

/-- Settles O40: a bus fault of `NH` has no side effect, and one of `POLY_UPD` spoils the accumulator. -/
theorem nhAndPolyUpdFaults : Obligations.NhAndPolyUpdFaults := by
  intro i s f hc hl hf
  obtain ⟨hsetup, hout, hended⟩ := readSpoil_frame i s .memFault (BitVec.ofNat 64 f)
  refine ⟨fun n hi => ?_, fun hi => ?_⟩
  · subst hi
    exact ⟨_, exec_srcFault hc hl rfl hf, rfl, rfl, rfl, rfl, rfl, ⟨rfl, rfl⟩, ⟨rfl, rfl⟩, hsetup, hout, hended⟩
  · subst hi
    exact ⟨_, exec_srcFault hc hl rfl hf, rfl, rfl, rfl, rfl, rfl, ⟨rfl, rfl⟩, hsetup, hout, hended⟩

/-- Settles O41: the combiner faults where the one read of the message does, and both commands then spoil the accumulator. -/
theorem combineAndHashFaultsDropTheAccumulator : Obligations.CombineAndHashFaultsDropTheAccumulator := by
  intro i s hi _ hc hl
  have hspoil : readSpoil i = spoilAcc := by rcases hi with rfl | rfl <;> rfl
  have hctx : CtxBytes i s [] := by rcases hi with rfl | rfl <;> rfl
  refine ⟨fun f hf => ?_, fun msg hhash hsrc hp => ?_⟩
  · have hexec := exec_srcFault hc hl hctx hf
    obtain ⟨hsetup, hout, hended⟩ := readSpoil_frame i s .memFault (BitVec.ofNat 64 f)
    rw [hspoil] at hexec hsetup hout hended
    exact ⟨_, hexec, rfl, rfl, rfl, rfl, rfl, ⟨rfl, rfl⟩, hsetup, hout, hended⟩
  · subst hhash
    obtain ⟨hsetup, hout, hended⟩ := portSpoil_frame .hash s .primFault 0
    exact ⟨_, exec_of_ends (.portError ⟨hc, hl⟩ hctx hsrc hp), rfl, ⟨rfl, rfl, rfl, rfl⟩, ⟨rfl, rfl⟩, hsetup, hout,
      hended⟩

/-- Settles O42: each wait is an end of the command that leaves the state as it is. -/
theorem unansweredCommandKeepsRunning : Obligations.UnansweredCommandKeepsRunning := by
  intro i s hc hl
  refine ⟨fun hctx => ?_, fun ctx hctx hsrc => ?_, fun ctx seed hi hctx hsrc hp => ?_, fun ctx msg hi hctx hsrc hp => ?_⟩
  · exact exec_of_ends (.ctxSilent ⟨hc, hl⟩ hctx)
  · exact exec_of_ends (.srcSilent ⟨hc, hl⟩ hctx hsrc)
  · subst hi
    exact exec_of_ends (.portSilent ⟨hc, hl⟩ hctx hsrc hp)
  · have hport : portOf i s = .silent := by rcases hi with rfl | rfl <;> exact hp
    exact exec_of_ends (.portSilent ⟨hc, hl⟩ hctx hsrc hport)

/-! ## Rules of every command (R61, R105, R106, R147, R183, R205) -/

/-- Settles O52: a command that answers has waited, or has completed with its surroundings as they were. -/
theorem engineChangesNothingOutside : Obligations.EngineChangesNothingOutside := by
  intro i s t h
  rcases exec_waitsOrFinishes h with rfl | ⟨u, rfl, hsetup, hout⟩
  · exact ⟨⟨rfl, rfl, rfl⟩, ⟨rfl, fun _ => rfl⟩, rfl, rfl, rfl, rfl⟩
  · exact ⟨hsetup, hout⟩

/-- The same machine with another choice of datapath. -/
def withVecSel (v : Bool) (s : State) : State := { s with work := { s.work with vecSel := v } }

/-- The results of a command do not depend on the datapath once its working state is gone (R49, R147). -/
theorem complete_resultOf_withVecSel (i : Instr) (ctx src : Bytes) (v : Bool) (s : State) :
    complete (resultOf i ctx src (withVecSel v s)) = complete (resultOf i ctx src s) := by
  cases i with
  | nh n =>
    show complete (storeNh (nhEval v s.keyram src) (withVecSel v s)) = complete (storeNh (nhEval _ s.keyram src) s)
    rw [nhEval_eq, nhEval_eq]
    rfl
  | _ => rfl

theorem readSpoil_withVecSel (i : Instr) (v : Bool) (s : State) (code : ErrCode) (info : DWord) :
    raiseError code info (readSpoil i (withVecSel v s)) = raiseError code info (readSpoil i s) := by
  cases i <;> rfl

theorem portSpoil_withVecSel (i : Instr) (v : Bool) (s : State) (code : ErrCode) (info : DWord) :
    raiseError code info (portSpoil i (withVecSel v s)) = raiseError code info (portSpoil i s) := by
  cases i <;> rfl

/-- A command that completes does so on either datapath, and in the same state. -/
theorem ends_withVecSel {i : Instr} (v : Bool) (h : CommandEnds i s t) (hne : t ≠ s) : CommandEnds i (withVecSel v s) t := by
  have hlaunch : Launched i s → Launched i (withVecSel v s) := fun hl => ⟨hl.checks, hl.allowed⟩
  cases h with
  | ctxSilent | srcSilent | portSilent => exact absurd rfl hne
  | failedCheck hc => exact .failedCheck (s := withVecSel v s) hc
  | ctxFault hl hctx =>
    rw [← readSpoil_withVecSel i v]
    exact .ctxFault (hlaunch hl) hctx
  | srcFault hl hctx hsrc =>
    rw [← readSpoil_withVecSel i v]
    exact .srcFault (hlaunch hl) hctx hsrc
  | portError hl hctx hsrc hp =>
    rw [← portSpoil_withVecSel i v]
    exact .portError (hlaunch hl) hctx hsrc hp
  | done hl hctx hsrc hp =>
    rw [← complete_resultOf_withVecSel i _ _ v]
    exact .done (hlaunch hl) hctx hsrc hp

/-- Settles O44: the vector datapath adds the same terms, and a completed command leaves no trace of the choice. -/
theorem vectorDatapathEqualsScalar : Obligations.VectorDatapathEqualsScalar := by
  refine ⟨fun k msg => ⟨nhDigest_nhEval _ _ _, (nhEval_eq _ _ _).trans (nhEval_eq _ _ _).symm⟩, ?_⟩
  intro i s t v hb h hidle
  have hne : t ≠ s := fun he => Fsm.noConfusion (hidle.symm.trans (he ▸ hb))
  exact exec_of_ends (ends_withVecSel v (exec_ends h) hne)

/-- The same machine with other contents of host memory. -/
def withMem (m : Memory) (s : State) : State := { s with mem := m }

/-- A read sees no more of memory than its range. -/
theorem memRead_withMem {m : Memory} {slot : Slot} {a n : Nat}
    (h : ∀ x, a ≤ x → x < a + n → m.get x = s.mem.get x) : memRead (withMem m s) slot a n = memRead s slot a n := by
  refine readBytes_congr fun x hlo hhi => ?_
  have hx : (withMem m s).mem.get x = s.mem.get x := h x hlo hhi
  rw [busByte, hx]
  rfl

/-- No result of a command is read from memory but the bytes it was given. -/
theorem resultOf_withMem (i : Instr) (ctx src : Bytes) (m : Memory) (s : State) :
    complete (resultOf i ctx src (withMem m s)) = withMem m (complete (resultOf i ctx src s)) := by
  cases i <;> rfl

theorem readSpoil_withMem (i : Instr) (m : Memory) (s : State) (code : ErrCode) (info : DWord) :
    raiseError code info (readSpoil i (withMem m s)) = withMem m (raiseError code info (readSpoil i s)) := by
  cases i <;> rfl

theorem portSpoil_withMem (i : Instr) (m : Memory) (s : State) (code : ErrCode) (info : DWord) :
    raiseError code info (portSpoil i (withMem m s)) = withMem m (raiseError code info (portSpoil i s)) := by
  cases i <;> rfl

/-- With the same bytes in its ranges a command ends in the same way in another memory. -/
theorem ends_withMem {i : Instr} {m : Memory}
    (hctx : memRead (withMem m s) .ctx (latCtx s) (ctxReadLen s i) = memRead s .ctx (latCtx s) (ctxReadLen s i))
    (hsrc : memRead (withMem m s) .src (latSrc s) (srcReadLen s i) = memRead s .src (latSrc s) (srcReadLen s i))
    (h : CommandEnds i s t) : CommandEnds i (withMem m s) (withMem m t) := by
  have hlaunch : Launched i s → Launched i (withMem m s) := fun hl => ⟨hl.checks, hl.allowed⟩
  cases h with
  | failedCheck hc => exact .failedCheck (s := withMem m s) hc
  | ctxSilent hl hc => exact .ctxSilent (hlaunch hl) (hctx.trans hc)
  | srcSilent hl hc hs => exact .srcSilent (hlaunch hl) (hctx.trans hc) (hsrc.trans hs)
  | portSilent hl hc hs hp => exact .portSilent (hlaunch hl) (hctx.trans hc) (hsrc.trans hs) hp
  | ctxFault hl hc =>
    rw [← readSpoil_withMem]
    exact .ctxFault (hlaunch hl) (hctx.trans hc)
  | srcFault hl hc hs =>
    rw [← readSpoil_withMem]
    exact .srcFault (hlaunch hl) (hctx.trans hc) (hsrc.trans hs)
  | portError hl hc hs hp =>
    rw [← portSpoil_withMem]
    exact .portError (hlaunch hl) (hctx.trans hc) (hsrc.trans hs) hp
  | done hl hc hs hp =>
    rw [← resultOf_withMem]
    exact .done (hlaunch hl) (hctx.trans hc) (hsrc.trans hs) hp

/-- Settles O55: memory enters a command through its two reads alone. -/
theorem commandsReadOnlyTheirRanges : Obligations.CommandsReadOnlyTheirRanges := by
  intro i s t m hctx hsrc h
  exact exec_of_ends (ends_withMem (memRead_withMem hctx) (memRead_withMem hsrc) (exec_ends h))

theorem Got.bind_ne_silent {α β : Type} {g : Got α} {f : α → Got β} (hg : g ≠ .silent) (hf : ∀ x, f x ≠ .silent) :
    g.bind f ≠ .silent := by
  cases g with
  | data x => exact hf x
  | fault a => simp
  | silent => exact absurd rfl hg

/-- Without marked addresses every read is answered (R63). -/
theorem memRead_ne_silent (hm : s.cfg.marks = []) (slot : Slot) (a n : Nat) : memRead s slot a n ≠ .silent := by
  have hbus : ∀ x, busByte s slot x ≠ .silent := by
    intro x
    unfold busByte
    cases s.mem.get x <;> simp [isSilent, hm]
  rw [memRead]
  induction n generalizing a with
  | zero => simp
  | succ n ih => exact Got.bind_ne_silent (hbus a) fun b => Got.bind_ne_silent (ih (a + 1)) fun bs => by simp

/-- Nothing is refused on a platform without marked addresses (R271). -/
theorem launchAllowed_of_no_marks (hm : s.cfg.marks = []) (i : Instr) : LaunchAllowed i s := by
  simp [LaunchAllowed, hasReadEffects, hm]

theorem portOf_ne_silent (hx : s.xofPort ≠ .silent) (hk : s.kmacPort ≠ .silent) (i : Instr) : portOf i s ≠ .silent := by
  cases i with
  | kdf => exact hx
  | tplInit | hash => exact hk
  | _ => exact PortMode.noConfusion

/-- A command whose reads and requests are answered completes. -/
theorem exec_completes (hm : s.cfg.marks = []) (hx : s.xofPort ≠ .silent) (hk : s.kmacPort ≠ .silent) (i : Instr) :
    ∃ t, exec i s = .next t ∧ t.fsm = .idle ∧ t.status.done = true := by
  have hends : ∃ t, CommandEnds i s t := by
    cases hf : firstFailed i s with
    | some c => exact ⟨_, .failedCheck hf⟩
    | none => exact ends_of_launched ⟨hf, launchAllowed_of_no_marks hm i⟩
  obtain ⟨t, ht⟩ := hends
  refine ⟨t, exec_of_ends ht, ?_⟩
  cases ht with
  | ctxSilent _ h => exact absurd h (memRead_ne_silent hm _ _ _)
  | srcSilent _ _ h => exact absurd h (memRead_ne_silent hm _ _ _)
  | portSilent _ _ _ h => exact absurd h (portOf_ne_silent hx hk i)
  | failedCheck | ctxFault | srcFault | portError | done => exact ⟨rfl, rfl⟩

/-- Settles O56: a word that decodes runs a command that is answered, and any other completes at once. -/
theorem everyRunningCommandCompletes : Obligations.EveryRunningCommandCompletes := by
  intro s hb hm hx hk
  show ∃ t, engineStep s = .next t ∧ _
  cases hd : decode (commandWord s.lat) with
  | ok i =>
    rw [engineStep_busy hb hd]
    exact exec_completes hm hx hk i
  | error r => exact ⟨_, engineStep_next.mpr (.inr (.inr ⟨hb, ⟨r, hd⟩, rfl⟩)), rfl, rfl⟩

/-! ## The key store (R41) -/

theorem resultOf_keyram {i : Instr} (hkdf : i ≠ .kdf) (hload : i ≠ .keyload) (ctx src : Bytes) (s : State) :
    (resultOf i ctx src s).keyram = s.keyram := by
  cases i with
  | kdf => exact absurd rfl hkdf
  | keyload => exact absurd rfl hload
  | polyUpdnh => exact foldInto_keyram s _
  | _ => rfl

/-- Every command but `KDF` and `KEYLOAD` keeps the key store, whatever it ends in. -/
theorem exec_keyram {i : Instr} (h : exec i s = .next t) (hkdf : i ≠ .kdf) (hload : i ≠ .keyload) :
    t.keyram = s.keyram := by
  cases exec_ends h with
  | failedCheck | ctxSilent | srcSilent | portSilent => rfl
  | ctxFault | srcFault =>
    cases i with
    | kdf => exact absurd rfl hkdf
    | keyload => exact absurd rfl hload
    | _ => rfl
  | portError =>
    cases i with
    | kdf => exact absurd rfl hkdf
    | _ => rfl
  | done => exact resultOf_keyram hkdf hload _ _ s

theorem exec_changes_keyram {i : Instr} (h : exec i s = .next t) (hd : t.keyram ≠ s.keyram) : i = .kdf ∨ i = .keyload := by
  by_contra hn
  obtain ⟨hkdf, hload⟩ := not_or.mp hn
  exact hd (exec_keyram h hkdf hload)

theorem engineStep_changes_keyram (h : engineStep s = .next t) (hd : t.keyram ≠ s.keyram) :
    s.fsm = .busy ∧ (decode (commandWord s.lat) = .ok .kdf ∨ decode (commandWord s.lat) = .ok .keyload) := by
  rcases engineStep_next.mp h with ⟨-, rfl⟩ | ⟨hb, i, hi, he⟩ | ⟨-, -, rfl⟩
  · exact absurd rfl hd
  · rcases exec_changes_keyram he hd with rfl | rfl
    · exact ⟨hb, .inl hi⟩
    · exact ⟨hb, .inr hi⟩
  · exact absurd rfl hd

/-- A register write keeps the key store unless it is the soft reset. -/
theorem writeReg_keyram {g : Reg} {v : Word} (h : g = .ctrl → v.getLsbD 31 = false) (s : State) :
    (writeReg g v s).keyram = s.keyram := by
  cases g with
  | ctrl =>
    show (writeCtrl v s).keyram = s.keyram
    rw [writeCtrl_fields (h rfl)]
  | cmd =>
    show (writeCmd v s).keyram = s.keyram
    unfold writeCmd
    cases s.fsm <;> rfl
  | _ => rfl

theorem hostWrite_changes_keyram {addr width : Nat} {v : Word} (h : hostWrite addr width v s = .next t)
    (hd : t.keyram ≠ s.keyram) : windowOffset s.cfg addr width = some 0x008 ∧ v.getLsbD 31 = true := by
  obtain ⟨off, ho, rfl⟩ := hostWrite_next.mp h
  cases hg : regAt off with
  | none =>
    rw [writeOffset_reserved hg] at hd
    exact absurd rfl hd
  | some g =>
    rw [writeOffset_of_regAt hg] at hd
    by_contra hn
    refine hd (writeReg_keyram (fun hc => ?_) s)
    have h8 : off = 0x008 := (regOffset_of_regAt (hc ▸ hg)).symm
    rw [← Bool.not_eq_true]
    exact fun hv => hn ⟨h8 ▸ ho, hv⟩

theorem engineThenWrite_changes_keyram {addr width : Nat} {v : Word} (h : engineThenWrite addr width v s = .next t)
    (hd : t.keyram ≠ s.keyram) :
    (windowOffset s.cfg addr width = some 0x008 ∧ v.getLsbD 31 = true) ∨
    (s.fsm = .busy ∧ (decode (commandWord s.lat) = .ok .kdf ∨ decode (commandWord s.lat) = .ok .keyload)) := by
  rcases engineThenWrite_next.mp h with ⟨hr, -⟩ | ⟨-, u, he, hw⟩
  · exact .inl (isSoftReset_iff.mp hr)
  · by_cases hu : u.keyram = s.keyram
    · exact .inl (engineStep_cfg he ▸ hostWrite_changes_keyram hw (hu ▸ hd))
    · exact .inr (engineStep_changes_keyram he hu)

/-- Settles O53: of all moves only the two resets and the engine's `KDF` and `KEYLOAD` write the key store. -/
theorem onlyKeyCommandsChangeTheKeyStore : Obligations.OnlyKeyCommandsChangeTheKeyStore := by
  intro i e s t
  refine ⟨exec_changes_keyram, fun h hd => ?_⟩
  cases e with
  | write addr width v => exact .inr (.inl ⟨addr, width, v, .inl rfl, hostWrite_changes_keyram h hd⟩)
  | read addr width =>
    obtain ⟨off, -, rfl⟩ := hostRead_next.mp h
    exact absurd rfl hd
  | store addr b =>
    obtain ⟨-, -, rfl⟩ := hostStore_next h
    exact absurd rfl hd
  | busError addr =>
    cases h
    exact absurd rfl hd
  | port p m =>
    cases h
    cases p <;> exact absurd rfl hd
  | hwReset => exact .inl rfl
  | engine =>
    obtain ⟨hb, hk⟩ := engineStep_changes_keyram h hd
    exact .inr (.inr ⟨hb, hk, .inl rfl⟩)
  | engineWrite addr width v =>
    rcases engineThenWrite_changes_keyram h hd with hr | ⟨hb, hk⟩
    · exact .inr (.inl ⟨addr, width, v, .inr rfl, hr⟩)
    · exact .inr (.inr ⟨hb, hk, .inr ⟨addr, width, v, rfl⟩⟩)

/-! ## Reads of host memory (R62, R63, R71) -/

theorem busByte_fault {slot : Slot} {a f : Nat} (h : busByte s slot a = .fault f) : a = f := by
  unfold busByte at h
  split at h
  · cases h
  · split at h <;> cases h
    rfl

theorem readBytes_eq_data {bus : Nat → Got Byte} {a n : Nat} {b : Bytes} :
    readBytes bus a n = .data b ↔ b.length = n ∧ ∀ j, (h : j < b.length) → bus (a + j) = .data b[j] := by
  induction n generalizing a b with
  | zero =>
    rw [readBytes_zero, List.length_eq_zero_iff]
    constructor
    · intro h
      cases h
      exact ⟨rfl, fun j hj => absurd hj (Nat.not_lt_zero j)⟩
    · rintro ⟨rfl, -⟩
      rfl
  | succ n ih =>
    rw [readBytes_succ, Got.bind_eq_data]
    constructor
    · rintro ⟨x, hx, h⟩
      obtain ⟨bs, hbs, h⟩ := Got.bind_eq_data.mp h
      cases h
      obtain ⟨hlen, hrest⟩ := ih.mp hbs
      refine ⟨congrArg (· + 1) hlen, fun j hj => ?_⟩
      cases j with
      | zero => exact hx
      | succ j =>
        rw [← Nat.add_assoc, Nat.add_right_comm]
        exact hrest j (Nat.lt_of_succ_lt_succ hj)
    · rintro ⟨hlen, hall⟩
      obtain ⟨x, bs, rfl⟩ := List.exists_cons_of_length_eq_add_one hlen
      have hbs : readBytes bus (a + 1) n = .data bs := by
        refine ih.mpr ⟨Nat.succ.inj hlen, fun j hj => ?_⟩
        rw [Nat.add_assoc, Nat.add_comm 1 j]
        exact hall (j + 1) (Nat.succ_lt_succ hj)
      exact ⟨x, hall 0 (Nat.succ_pos _), by rw [hbs, Got.bind_data]⟩

theorem Got.bind_data_eq_fault {α β : Type} {g : Got α} {p : α → β} {f : Nat} :
    (g.bind fun x => .data (p x)) = .fault f ↔ g = .fault f := by
  cases g <;> simp

/-- An address that does not answer with data has no faulting address behind it. -/
theorem eq_of_no_data {bus : Nat → Got Byte} {a f : Nat} (ha : ∀ y, bus a ≠ .data y) (hle : a ≤ f)
    (hbelow : ∀ x, a ≤ x → x < f → ∃ y, bus x = .data y) : a = f := by
  by_contra hne
  obtain ⟨y, hy⟩ := hbelow a le_rfl (by omega)
  exact ha y hy

/-- The first address that does not answer with data decides how a read ends (R63). -/
theorem readBytes_eq_fault {bus : Nat → Got Byte} (hbus : ∀ x f, bus x = .fault f → x = f) {a n f : Nat} :
    readBytes bus a n = .fault f ↔
      a ≤ f ∧ f < a + n ∧ bus f = .fault f ∧ ∀ x, a ≤ x → x < f → ∃ y, bus x = .data y := by
  induction n generalizing a with
  | zero =>
    refine iff_of_false (by simp) ?_
    rintro ⟨hle, hlt, -⟩
    omega
  | succ n ih =>
    rw [readBytes_succ]
    cases ha : bus a with
    | data d =>
      rw [Got.bind_data, Got.bind_data_eq_fault, ih]
      constructor
      · rintro ⟨hle, hlt, hf, hbelow⟩
        refine ⟨by omega, by omega, hf, fun x hx hxf => ?_⟩
        rcases hx.eq_or_lt with rfl | hx
        · exact ⟨d, ha⟩
        · exact hbelow x hx hxf
      · rintro ⟨hle, hlt, hf, hbelow⟩
        have hne : a ≠ f := by
          rintro rfl
          cases ha.symm.trans hf
        exact ⟨by omega, by omega, hf, fun x hx hxf => hbelow x (by omega) hxf⟩
    | fault g =>
      obtain rfl := hbus a g ha
      rw [Got.bind_fault]
      constructor
      · intro h
        cases h
        exact ⟨le_rfl, by omega, ha, fun x hx hxf => by omega⟩
      · rintro ⟨hle, -, -, hbelow⟩
        rw [eq_of_no_data (by simp [ha]) hle hbelow]
    | silent =>
      rw [Got.bind_silent]
      refine iff_of_false (by simp) ?_
      rintro ⟨hle, -, hf, hbelow⟩
      obtain rfl := eq_of_no_data (by simp [ha]) hle hbelow
      cases ha.symm.trans hf

/-- Settles O21, by induction along the range: a read goes on exactly behind data. -/
theorem memReadGivesBytesOrLowestFault : Obligations.MemReadGivesBytesOrLowestFault := by
  intro s slot a n
  exact ⟨fun b => readBytes_eq_data, fun f => readBytes_eq_fault fun x f => busByte_fault⟩

/-! ## Host stores (R16, R71) -/

theorem Memory.get_set (m : Memory) (x : Nat) (v : Byte) (y : Nat) :
    (m.set x v).get y = if y = x then some v else m.get y := by
  induction m with
  | nil => simp [Memory.set, Memory.get_cons, eq_comm]
  | cons c m ih =>
    obtain ⟨a, b⟩ := c
    simp only [Memory.set]
    split
    · simp only [Memory.get_cons, eq_comm]
    · split
      next h =>
        subst h
        simp only [Memory.get_cons, eq_comm]
        split <;> rfl
      next h =>
        simp only [Memory.get_cons, ih]
        split
        next ha => rw [if_neg (ha ▸ h)]
        next ha => rfl

theorem mem_insertAddr {l : List Nat} {a x : Nat} : x ∈ insertAddr l a ↔ x ∈ l ∨ x = a := by
  induction l with
  | nil => simp [insertAddr]
  | cons c l ih =>
    simp only [insertAddr]
    split
    · rw [List.mem_cons, or_comm]
    · split
      next h =>
        subst h
        simp +contextual
      next h => rw [List.mem_cons, List.mem_cons, ih, or_assoc]

/-- Settles O22: the byte is set in memory, and its address joins the racing ones while a command runs. -/
theorem hostStoreChangesOneByte : Obligations.HostStoreChangesOneByte := by
  intro s t a b h
  obtain ⟨-, -, rfl⟩ := hostStore_next h
  refine ⟨by simp [Memory.get_set], fun x hx => by simp [Memory.get_set, hx], Memory.wf_set _ _ _, fun x => ?_, rfl⟩
  cases hf : s.fsm with
  | idle => simp
  | busy => simp [mem_insertAddr]

/-- Settles O23: the stored address races, and no other address is stored to or races. -/
theorem racingByteIsADraw : Obligations.RacingByteIsADraw := by
  intro s t a b hb h hquiet
  obtain ⟨-, -, rfl⟩ := hostStore_next h
  refine ⟨fun slot => ?_, fun slot x hx => ?_⟩
  · have hq : s.cfg.marks.any (fun k => decide (k.kind = .silent) && markHolds k a) = false := hquiet
    simp [busByte, isSilent, hq, Memory.get_set, hb, mem_insertAddr]
  · simp [busByte, isSilent, Memory.get_set, hx, hb, mem_insertAddr]

/-! ## The registers as the host reads them (R21 to R37) -/

theorem regAt_regOffset (g : Reg) : regAt (regOffset g) = some g := by
  cases g with
  | nhOut j | polyOut j | hashOut j => fin_cases j <;> rfl
  | _ => rfl

theorem regOffset_aligned (g : Reg) : regOffset g % 4 = 0 ∧ regOffset g < 256 := by
  cases g with
  | nhOut j | polyOut j | hashOut j =>
    have hj := j.isLt
    simp only [regOffset]
    omega
  | _ => exact ⟨rfl, by decide⟩

/-- A write access at the offset of a register is the write to it. -/
theorem hostWrite_reg (g : Reg) (v : Word) (s : State) :
    hostWrite (s.cfg.regBase + regOffset g) 32 v s = .next (writeReg g v s) := by
  obtain ⟨ha, ho⟩ := regOffset_aligned g
  rw [hostWrite_aligned s v ho ha, writeOffset_of_regAt (regAt_regOffset g)]

/-- Settles O9: the two maps are inverse, and a write to an operand register sets its field. -/
theorem registerMapAgrees : Obligations.RegisterMapAgrees := by
  refine ⟨fun g => ⟨regAt_regOffset g, regOffset_aligned g⟩, fun off g => regOffset_of_regAt, fun s v => ?_,
    fun s => ⟨rfl, rfl, rfl, rfl, rfl, rfl, rfl⟩⟩
  exact ⟨hostWrite_reg .srcAddrLo v s, hostWrite_reg .srcAddrHi v s, hostWrite_reg .srcLenLo v s,
    hostWrite_reg .srcLenHi v s, hostWrite_reg .ctxAddrLo v s, hostWrite_reg .ctxAddrHi v s, hostWrite_reg .ctxLen v s⟩

theorem capsWord_toNat {c : Config} (hc : c.wf) :
    (capsWord c).toNat =
      c.vecPresent.toNat + 2 * (if c.persBind = .mac then 1 else 0) + 4 * c.primMayFault.toNat + 2 ^ 8 * c.nhBatch +
        2 ^ 16 * c.addrW := by
  obtain ⟨-, haddr, -, hbatch, -⟩ := hc
  have hbind : (decide (c.persBind = .mac)).toNat = if c.persBind = .mac then 1 else 0 := by
    cases c.persBind <;> rfl
  simp only [capsWord, append_toNat, BitVec.toNat_ofBool, hbind, BitVec.ofNat_eq_ofNat, BitVec.toNat_ofNat]
  omega

/-- Settles O10: `CAPS` is its fields side by side, and a write to a read-only register is ignored. -/
theorem identityRegistersAreConstant : Obligations.IdentityRegistersAreConstant := by
  refine ⟨fun s => rfl, fun s => capsWord_toNat, fun s hc => ?_, fun s off v hoff => ?_⟩
  · rw [readOffset_caps, hc]
    rfl
  · rcases hoff with rfl | rfl
    · exact hostWrite_reg .id v s
    · exact hostWrite_reg .caps v s

theorem statusWord_toNat (s : State) :
    (statusWord s).toNat =
      (if s.fsm = .busy then 1 else 0) + 2 * s.status.done.toNat + 4 * s.status.err.toNat + 8 * s.status.ovr.toNat +
        16 * s.status.keyValid.toNat + 32 * s.status.tplValid.toNat + 64 * s.status.polyValid.toNat +
        128 * s.status.vecUsed.toNat + 256 * s.status.errCode.number.toNat + 65536 * s.status.lastOp.toNat := by
  have hbusy : (busyBit s).toNat = if s.fsm = .busy then 1 else 0 := by
    unfold busyBit
    cases s.fsm <;> rfl
  simp only [statusWord, append_toNat, BitVec.toNat_ofBool, hbusy, BitVec.ofNat_eq_ofNat,
    BitVec.toNat_ofNat]
  omega

/-- Settles O11: `STATUS` is its fields side by side. -/
theorem statusShowsItsFields : Obligations.StatusShowsItsFields :=
  ⟨⟨rfl, rfl, rfl, rfl, rfl, rfl, rfl, rfl, rfl, rfl, rfl⟩, statusWord_toNat⟩

/-- Settles O18: a register is 32 bits of its digest, which are four bytes of it. -/
theorem resultRegistersShowTheirBytes : Obligations.ResultRegistersShowTheirBytes := by
  have hbits : ∀ {w n : Nat} (d : BitVec w) (j : Nat), 4 * j + 4 ≤ n →
      d.extractLsb' (32 * j) 32 = le32 (unpackBytes d 0 n) (4 * j) := by
    intro w n d j hj
    rw [le32_unpackBytes d hj, ← Nat.mul_assoc]
  refine ⟨fun s j => ⟨fun hj => ?_, fun hj => ?_, fun hj => ?_⟩, fun s => ⟨?_, ?_, rfl⟩⟩
  · rw [← hbits s.nhd j (by omega)]
    exact readOffset_of_regAt (regAt_regOffset (.nhOut ⟨j, hj⟩)) s
  · rw [← hbits s.pd j (by omega)]
    exact readOffset_of_regAt (regAt_regOffset (.polyOut ⟨j, hj⟩)) s
  · rw [← hbits s.hd j (by omega)]
    exact readOffset_of_regAt (regAt_regOffset (.hashOut ⟨j, hj⟩)) s
  · exact BitVec.extractLsb'_toNat ..
  · have he := s.errAddr.isLt
    show (s.errAddr.extractLsb' 32 32).toNat = _
    rw [BitVec.extractLsb'_toNat, Nat.shiftRight_eq_div_pow]
    omega

/-- Settles O19: no register is read from a secret. -/
theorem registersHideTheSecrets : Obligations.RegistersHideTheSecrets := by
  intro s k p r h off
  refine ⟨?_, rfl⟩
  cases hg : regAt off with
  | none => rw [readOffset_reserved hg, readOffset_reserved hg]
  | some g =>
    rw [readOffset_of_regAt hg, readOffset_of_regAt hg]
    cases g <;> rfl

/-! ## The interrupt (R230) and the reset (R260) -/

theorem statusWord_done (s : State) : (statusWord s).getLsbD 1 = s.status.done := by
  simp only [statusWord, BitVec.getLsbD_append, BitVec.getLsbD_ofBool]
  rfl

theorem statusWord_err (s : State) : (statusWord s).getLsbD 2 = s.status.err := by
  simp only [statusWord, BitVec.getLsbD_append, BitVec.getLsbD_ofBool]
  rfl

theorem ctrlWord_ieDone (s : State) : (ctrlWord s).getLsbD 1 = s.ctrl.ieDone := by
  simp only [ctrlWord, BitVec.getLsbD_append, BitVec.getLsbD_ofBool]
  rfl

theorem ctrlWord_ieErr (s : State) : (ctrlWord s).getLsbD 2 = s.ctrl.ieErr := by
  simp only [ctrlWord, BitVec.getLsbD_append, BitVec.getLsbD_ofBool]
  rfl

/-- With `DONE` and `ERR` clear the line is low, whatever the enables are. -/
theorem irq_low (hd : s.status.done = false) (he : s.status.err = false) : irq s = false := by simp [irq, hd, he]

/-- Settles O20: the four bits are those of the two words, and both moves clear `DONE` and `ERR`. -/
theorem interruptFollowsStatusAndEnables : Obligations.InterruptFollowsStatusAndEnables := by
  intro s
  refine ⟨?_, fun v h1 h2 => ?_, fun w hidle => ?_⟩
  · rw [readOffset_status, readOffset_ctrl, statusWord_done, statusWord_err, ctrlWord_ieDone, ctrlWord_ieErr, irq]
  · rw [writeOffset_status]
    exact irq_low (by simp [h1]) (by simp [h2])
  · rw [writeOffset_of_regAt (g := .cmd) rfl, writeReg, writeCmd_idle hidle]
    exact irq_low rfl rfl

/-- After a reset only `ID` and `CAPS` read anything but 0 (R260). -/
theorem readReg_resetBlock {g : Reg} (hid : g ≠ .id) (hcaps : g ≠ .caps) (s : State) : readReg (resetBlock s) g = 0 := by
  cases g with
  | id => exact absurd rfl hid
  | caps => exact absurd rfl hcaps
  | ctrl => exact ctrlWord_resetBlock s
  | status => exact BitVec.eq_of_toNat_eq (statusWord_toNat (resetBlock s))
  | errAddrHi | nhOut | polyOut | hashOut => exact BitVec.extractLsb'_zero
  | _ => rfl

theorem readOffset_resetBlock (s : State) (off : Nat) :
    readOffset (resetBlock s) off =
      if off = 0x000 then 0x4E485031 else if off = 0x004 then capsWord s.cfg else 0 := by
  by_cases h0 : off = 0x000
  · subst h0
    rfl
  by_cases h4 : off = 0x004
  · subst h4
    rfl
  rw [if_neg h0, if_neg h4]
  cases hg : regAt off with
  | none => exact readOffset_reserved hg _
  | some g =>
    have hoff := regOffset_of_regAt hg
    rw [readOffset_of_regAt hg]
    refine readReg_resetBlock ?_ ?_ s
    · rintro rfl
      exact h0 hoff.symm
    · rintro rfl
      exact h4 hoff.symm

/-- Settles O14: a reset leaves the fields of `State.reset` inside the block, and the power-on state is its own reset. -/
theorem resetLeavesTheListedValues : Obligations.ResetLeavesTheListedValues := by
  have hpower : resetBlock State.reset = State.reset := rfl
  refine ⟨fun s => ?_, fun off => ?_, rfl, rfl, rfl, rfl, rfl⟩
  · exact ⟨_, runEvent_hwReset s, readOffset_resetBlock s, rfl, rfl, rfl, rfl, rfl, rfl, resetBlock_sameOutside s,
      engineStep_idle rfl⟩
  · exact hpower ▸ readOffset_resetBlock State.reset off

end Sys2Proof.Machine
end
